-- ==== Sys2Proof/Word.lean ====
section
/-! DEFINITION. The word types of the block (00_scope.md R6: DR_WIDTH = 8, CNT_WIDTH = 4, CMD_WIDTH = 16). -/

namespace Sys2Proof

/-- An 8-bit register or operand (R6 `DR_WIDTH`). -/
abbrev Byte := BitVec 8

/-- The 4-bit edge counter (R6 `CNT_WIDTH`). -/
abbrev Count := BitVec 4

/-- A 16-bit command word (R6 `CMD_WIDTH`, R60). -/
abbrev CmdWord := BitVec 16

end Sys2Proof
end

