-- ==== Sys2Proof/Syntax.lean ====
section
/-! DEFINITION. The instructions: one constructor per row of spec/opcode_table.json (30_encoding.md R61, R64), and the
assembler lines of R67. -/

namespace Sys2Proof

/-- The six host commands and the two modes of the Transfer Primitive. -/
inductive Instr where
  /-- `INIT` (R120). -/
  | init
  /-- `START` (R121). -/
  | start
  /-- `STOP` (R122). -/
  | stop
  /-- `WRB #b` (R135): `d` is the field D, the byte to write. -/
  | wrb (d : Byte)
  /-- `RDB MORE`, `RDB LAST` (R136): `more` is the field F, requestMore. -/
  | rdb (more : Bool)
  /-- `WRA #a, W`, `WRA #a, R` (R137): `d` is the field D, whose bits 6:0 are the address and whose bit 7 must be 0;
  `isWrite` is the field F. -/
  | wra (d : Byte) (isWrite : Bool)
  /-- `call XFER(0xF0)` (R111): the Transfer Primitive in byte mode; not a host command. -/
  | xferByte
  /-- `call XFER(0xFE)` (R111): the Transfer Primitive in bit mode; not a host command. -/
  | xferBit
  deriving DecidableEq, Repr

/-- Whether an instruction is a host command (R5), as opposed to a mode of the Transfer Primitive (R110). -/
def Instr.isCommand : Instr → Bool
  | .init | .start | .stop | .wrb _ | .rdb _ | .wra _ _ => true
  | .xferByte | .xferBit => false

/-- A word as it reaches the block: a command word on `cmd[15:0]` (R60), or the argument of the Transfer Primitive
(R63). -/
inductive Code where
  | command (w : CmdWord)
  | mask (m : Byte)
  deriving DecidableEq, Repr

/-- The operation codes of R61. -/
inductive Opcode where
  | init | start | stop | wrb | rdb | wra
  deriving DecidableEq, Repr

/-- Why a word is reserved (R65) or a mask has no meaning (R64, U3). -/
inductive DecodeError where
  /-- OPC is 0x0 or 0x7 to 0xF. -/
  | reservedOpcode
  /-- Z, bits 11:9, is not 000. -/
  | zFieldSet
  /-- F is 1 in INIT, START, STOP or WRB. -/
  | flagOperandSet
  /-- D is not 0x00 in INIT, START, STOP or RDB. -/
  | byteOperandSet
  /-- D[7] is 1 in WRA. -/
  | addressTooWide
  /-- A transfer mask other than 0xF0 and 0xFE. -/
  | unknownMask
  deriving DecidableEq, Repr

/-- An assembler line of R67, with its operands as the numbers written in it. -/
inductive Asm where
  | init | start | stop
  | wrb (b : Nat)
  | rdb (more : Bool)
  | wra (a : Nat) (isWrite : Bool)
  deriving DecidableEq, Repr

end Sys2Proof
end

