-- ==== Sys2Proof/Machine/State.lean ====
section
/-! DEFINITION. The state of the machine: the registers of 10_state.md R10, the inputs of R28, the agents' coming moves
(20_memory.md R40 to R43) and the bus observer of R58; the state after reset (R32); the reasons a step can stop. -/

namespace Sys2Proof.Machine

/-! ### The sequencer (R21) -/

/-- The command a sequencer runs: OP of R21. -/
inductive Op where
  | idle | init | start | stop | wrb | rdb | wra
  deriving DecidableEq, Repr

/-- The micro-steps of the six commands (R120, R121, R122, R135, R136, R137): OP and UPC of R21 in one name. -/
inductive MicroStep where
  | in0 | in1 | in2 | in3 | in4 | in5 | in6
  | st0 | st1 | st2 | st3 | st4 | st5 | st6 | st7
  | sp0 | sp1 | sp2 | sp3 | sp4 | sp5
  | wb0 | wb1 | wb2 | wb3 | wb4 | wb5
  | rd0 | rd1 | rd2 | rd3 | rd4 | rd5 | rd6
  | wa0
  deriving DecidableEq, Repr

/-- The micro-steps of the Transfer Primitive (R111): the index of XPC. -/
inductive XferStep where
  | xf0 | xf1 | xf2 | xf3 | xf4 | xf5 | xf6 | xf7 | xf8 | xf9
  deriving DecidableEq, Repr

/-- SEQ (R21). `idle` is (IDLE, 0, NONE); `run st xpc` is the running command at its micro-step `st`, inside the
Transfer Primitive when `xpc` is not `none`. Log entry 14. -/
inductive Sequencer where
  | idle
  | run (st : MicroStep) (xpc : Option XferStep)
  deriving DecidableEq, Repr

/-! ### The agents' moves and the bus observer -/

/-- One coming move of an agent (R40), the platform's reset (R170) among them. Log entry 2. -/
inductive Turn where
  /-- The block executes one micro-step (R41). -/
  | block
  /-- The peer sets its two inputs (R42). -/
  | peer (sdaLow sclLow : Bool)
  /-- The host presents a command word (R43, R69). -/
  | host (w : CmdWord)
  /-- The host reads RES (R43). -/
  | hostRead
  /-- The platform asserts reset (R170, R171). -/
  | reset
  deriving DecidableEq, Repr

/-- What the bus observer emits (R58). -/
inductive BusEvent where
  | start
  | stop
  | bit (level : Bool)
  deriving DecidableEq, Repr

/-! ### State -/

/-- The state. One-bit registers are `Bool`, `true` for 1. -/
structure State where
  /-- SDA_DIR (R11): 1 = output. -/
  sdaDir : Bool
  /-- SCL_DIR (R12): 1 = output. -/
  sclDir : Bool
  /-- SDA_PORT (R13): 1 = released, 0 = pull low. -/
  sdaPort : Bool
  /-- SCL_PORT (R14): 1 = released, 0 = pull low. -/
  sclPort : Bool
  /-- DR (R16), the shift data register. -/
  dr : Byte
  /-- OL (R17), the output latch between DR[7] and the data line. -/
  ol : Bool
  /-- SR.CF (R18, R30), the completion flag. -/
  cf : Bool
  /-- SR.CNT (R18), the edge counter. -/
  cnt : Count
  /-- CR.EN (R19), the enable of the shift unit. -/
  en : Bool
  /-- SCLQ (R20), the last settled level of the clock line. -/
  sclq : Bool
  /-- SEQ (R21), the sequencer. -/
  seq : Sequencer
  /-- XMASK (R22), the argument of the running Transfer Primitive. -/
  xmask : Byte
  /-- OPD.F (R23), the boolean operand. -/
  opdF : Bool
  /-- OPD.D (R23), the byte operand. -/
  opdD : Byte
  /-- TMP (R24), what the Transfer Primitive returns. -/
  tmp : Byte
  /-- RBUF (R25), the received byte of RDB. -/
  rbuf : Byte
  /-- RES (R26), the result register. -/
  res : Byte
  /-- The input `peer_sda_low` (R28): some other device pulls SDA low. -/
  peerSdaLow : Bool
  /-- The input `peer_scl_low` (R28): some other device pulls SCL low. -/
  peerSclLow : Bool
  /-- The model's own: the agents' coming moves, in order. Log entry 2. -/
  sched : List Turn
  /-- The model's own: the pending bit of the bus observer (R58). Log entry 9. -/
  obsPending : Option Bool
  /-- The model's own: what the bus observer has emitted, in order (R58). Log entry 9. -/
  obsTrace : List BusEvent
  deriving DecidableEq, Repr

/-- The machine right after reset (R32, R170) with a peer that pulls neither line. XMASK, OPD, TMP and RBUF have no
reset value in the spec: log entry 4. The inputs, the moves and the observer are not the block's: log entry 5. -/
def State.reset : State where
  sdaDir := false
  sclDir := false
  sdaPort := true
  sclPort := true
  dr := 0xFF#8
  ol := true
  cf := false
  cnt := 0#4
  en := false
  sclq := true
  seq := .idle
  xmask := 0x00#8
  opdF := false
  opdD := 0x00#8
  tmp := 0x00#8
  rbuf := 0x00#8
  res := 0x00#8
  peerSdaLow := false
  peerSclLow := false
  sched := []
  obsPending := none
  obsTrace := []

/-! ### Why a step can stop -/

/-- Faults: none. "The block raises no synchronous exception" (R150), and a hang "is a stuck state, not a fault"
(R153): the type has no constructor, so nothing raises one and a step never ends in one. -/
inductive Fault
  deriving DecidableEq, Repr

/-- Refusals: inputs to which the spec gives no behaviour. -/
inductive Refusal where
  /-- An arm of `exec` without a meaning. Raised by no arm of this model; safe. -/
  | notModelled (mnemonic : String)
  /-- `step`, when the host presents a word that R65 calls reserved ("a model refuses it", D4, U1). Safe: the
  machine stops where the spec gives no behaviour. -/
  | reservedWord (why : DecodeError)
  /-- `exec` of a host command in a busy state: "While SEQ.OP != IDLE no word can be presented" (R69, R43, D5). `step`
  never raises it, since a host turn waits (log entry 8). Safe. -/
  | busy
  /-- `exec` of a mode of the Transfer Primitive in an idle state, where no micro-step calls it: "the host cannot call
  it" (42_transfer_primitive.md, R110). `step` never raises it. Log entry 7. Safe. -/
  | noCaller
  /-- `exec` of a mode of the Transfer Primitive inside the primitive: "Calls do not nest" (R117). `step` never raises
  it. Log entry 7. Safe. -/
  | nestedCall
  deriving DecidableEq, Repr

end Sys2Proof.Machine
end

