-- ==== Sys2Proof/Machine/Flags.lean ====
section
/-! DEFINITION. The status register SR = (CF, CNT): the only flag of the block (R30), the edge counter and the 8-bit
image of R18. -/

namespace Sys2Proof.Machine

/-- The counter after one counted strobe (R98, R107 (a)): up by one, modulo 16. -/
def nextCount (c : Count) : Count := c + 1#4

/-- CF after one counted strobe that finds the counter at `c` (R99): set by the wrap from 15, kept otherwise. -/
def nextFlag (cf : Bool) (c : Count) : Bool := cf || c == 15#4

/-- The shift unit's part of a strobe (R86, R98): nothing counts while CR.EN = 0. -/
def countStrobe (s : State) : State :=
  if s.en then { s with cnt := nextCount s.cnt, cf := nextFlag s.cf s.cnt } else s

/-- CF after a write of `v` to SR (R100): bit 6 clears it, and a 0 there leaves it. -/
def writtenFlag (cf : Bool) (v : Byte) : Bool := cf && !v.getLsbD 6

/-- `SR <- v` (R100): CNT takes the low four bits; bits 7, 5 and 4 have no effect. -/
def writeStatus (v : Byte) (s : State) : State :=
  { s with cf := writtenFlag s.cf v, cnt := v.extractLsb' 0 4 }

/-- The value a read of SR returns (R101): CF at bit 6, CNT at bits 3:0, zeros elsewhere. -/
def readStatus (s : State) : Byte :=
  ((0#1 ++ BitVec.ofBool s.cf) ++ 0#2) ++ s.cnt

/-- The number of strobes after `SR <- v` at which CF sets (R104). -/
def strobesUntilFlag (v : Byte) : Nat := 16 - (v.extractLsb' 0 4).toNat

end Sys2Proof.Machine
end

