-- ==== Sys2Proof/Machine/Observer.lean ====
section
/-! DEFINITION. The bus observer of 20_memory.md R58. It is not part of the block: it compares the settled levels
before and after a step, and nothing of the block reads it. -/

namespace Sys2Proof.Machine

/-- What one step of the observer does: the new pending bit and what it emits. The cases of R58 in the order written. -/
def observerStep (sclBefore sdaBefore sclAfter sdaAfter : Bool) (pending : Option Bool) :
    Option Bool × List BusEvent :=
  match sclBefore, sclAfter with
  | true, true =>
    if sdaBefore && !sdaAfter then (none, [.start])
    else if !sdaBefore && sdaAfter then (none, [.stop])
    else (pending, [])
  | false, true => (some sdaAfter, [])
  | true, false =>
    match pending with
    | some level => (none, [.bit level])
    | none => (none, [])
  | false, false => (pending, [])

end Sys2Proof.Machine
end

