-- ==== Sys2Proof/Config.lean ====
section
/-! DEFINITION. The parameters of 00_scope.md R6. `PULLUP` is fixed to present (U7) and has no name here: the line
equations of Machine/Ops.lean assume it. -/

namespace Sys2Proof.Config

/-- `IDLE_FILL` (R6): the all-ones byte that INIT and the Transfer Primitive load into DR. -/
def idleFill : Byte := 0xFF#8

/-- `XMASK_BYTE` (R6, R64): clears every flag, starts the counter at 0, sixteen strobes. -/
def xmaskByte : Byte := 0xF0#8

/-- `XMASK_BIT` (R6, R64): clears every flag, starts the counter at 14, two strobes. -/
def xmaskBit : Byte := 0xFE#8

/-- What INIT writes to SR at IN6 (R120). -/
def initStatus : Byte := 0xF0#8

/-- `ACKVAL_MORE` (R6, R136): the document's value. Log entry 11. -/
def ackvalMore : Byte := 0x01#8

/-- `ACKVAL_LAST` (R6, R136): the document's value. Log entry 11. -/
def ackvalLast : Byte := 0x00#8

/-- `T_SETTLE` (R6, R190): 5 microseconds, in nanoseconds. -/
def tSettle : Nat := 5000

/-- By how much the OPEN parameter `T_STOP` exceeds `T_SETTLE`, less one nanosecond: free. Log entry 10. -/
opaque tStopExcess : Nat

/-- The OPEN parameter `T_XLOW`, less one nanosecond: free. Log entry 10. -/
opaque tXlowExcess : Nat

/-- The OPEN parameter `T_XHIGH`, less one nanosecond: free. Log entry 10. -/
opaque tXhighExcess : Nat

/-- `T_STOP` (R6): greater than `T_SETTLE`, otherwise open. -/
def tStop : Nat := tSettle + 1 + tStopExcess

/-- `T_XLOW` (R6): greater than zero, otherwise open. -/
def tXlow : Nat := 1 + tXlowExcess

/-- `T_XHIGH` (R6): greater than zero, otherwise open. -/
def tXhigh : Nat := 1 + tXhighExcess

end Sys2Proof.Config
end

