-- ==== Sys2Proof/Machine/Operands.lean ====
section
/-! DEFINITION. The operands of the commands and what is computed from them: the operand latch OPD (R23, R62), the
address byte of WRA (R137), the acknowledge value of RDB (R136), the result of WRB (R135). -/

namespace Sys2Proof.Machine

/-- Load the operand latch on the acceptance of a command (R62, R69). -/
def loadOperands (f : Bool) (d : Byte) (s : State) : State :=
  { s with opdF := f, opdD := d }

/-- The address-phase byte of WRA (R137, R107 (c)): bits 6:0 of D, then the inverse of F. -/
def composeAddress (d : Byte) (isWrite : Bool) : Byte :=
  d.extractLsb' 0 7 ++ BitVec.ofBool (!isWrite)

/-- The value RDB writes to DR at RD4 (R136). -/
def ackValue (more : Bool) : Byte :=
  if more then Config.ackvalMore else Config.ackvalLast

/-- The result of WRB (R135): `zext_8(TMP[0])`, the bit sampled last. -/
def ackResult (tmp : Byte) : Byte := (BitVec.ofBool (tmp.getLsbD 0)).setWidth 8

/-- DR after a rising edge with the data line at `level` (R96, R107 (b)): shift left, the level enters at bit 0. -/
def shiftIn (dr : Byte) (level : Bool) : Byte :=
  dr.extractLsb' 0 7 ++ BitVec.ofBool level

end Sys2Proof.Machine
end

