-- ==== Sys2Proof/Machine/Ops.lean ====
section
/-! DEFINITION. The named operations over the registers: line levels (R15), settle() (R44), the micro-operations of
Line Control (R80) and of the shift unit (41_shift_unit.md), reset (R170).

The block raises no exception and has no trap entry or return (R150, R155), so there is no operation that takes one; and
it has no memory (R46), so there is none over cells. -/

namespace Sys2Proof.Machine

/-! ### Line levels (R15) -/

/-- `master_scl_low`. -/
def masterSclLow (s : State) : Bool := s.sclDir && !s.sclPort

/-- `master_sda_low`: through the level latch, or through the output latch of the enabled shift unit. -/
def masterSdaLow (s : State) : Bool := s.sdaDir && (!s.sdaPort || (s.en && !s.ol))

/-- `SCL_line`: 1 exactly when nobody pulls the clock line low. -/
def sclLine (s : State) : Bool := !masterSclLow s && !s.peerSclLow

/-- `SDA_line`: 1 exactly when nobody pulls the data line low. -/
def sdaLine (s : State) : Bool := !masterSdaLow s && !s.peerSdaLow

/-- BUSY (R27): derived from SEQ. -/
def busy (s : State) : Bool :=
  match s.seq with
  | .idle => false
  | .run _ _ => true

/-- The port `cmd_ready` (D2): not BUSY. -/
def cmdReady (s : State) : Bool := !busy s

/-! ### settle() (R44) -/

/-- A rising edge of the clock line, seen by the enabled shift unit. -/
def risingEdge (s : State) : Bool := s.en && !s.sclq && sclLine s

/-- The sample and the shift: the data line is taken with OL as it stands. -/
def settleShift (s : State) : State :=
  if risingEdge s then { s with dr := shiftIn s.dr (sdaLine s) } else s

/-- Record the clock level. -/
def settleClock (s : State) : State := { s with sclq := sclLine s }

/-- The output latch: transparent while CR.EN = 0 or the clock line is low (R17). -/
def settleLatch (s : State) : State :=
  if !s.en || !sclLine s then { s with ol := s.dr.getLsbD 7 } else s

/-- settle(): sample and shift, record the clock level, update the latch, in this order (R44, R154). -/
def settle (s : State) : State := settleLatch (settleClock (settleShift s))

/-- The bus observer looks at the levels before and after a step (R58). -/
def observe (before after : State) : State :=
  let seen := observerStep (sclLine before) (sdaLine before) (sclLine after) (sdaLine after) after.obsPending
  { after with obsPending := seen.1, obsTrace := after.obsTrace ++ seen.2 }

/-- The end of a step of the block or of the peer: settle(), then the observer looks (R41, R42). -/
def finish (before after : State) : State := observe before (settle after)

/-! ### Micro-operations -/

/-- The four durations of R6; `Config` gives them. -/
inductive Duration where
  | tSettle | tStop | tXlow | tXhigh
  deriving DecidableEq, Repr

/-- The length of a duration, in nanoseconds (R190). Nothing of the machine depends on it (R45). -/
def durationOf : Duration → Nat
  | .tSettle => Config.tSettle
  | .tStop => Config.tStop
  | .tXlow => Config.tXlow
  | .tXhigh => Config.tXhigh

/-- The micro-operations: those of Line Control (R80), the accesses to the shift unit's registers, the moves between
the sequencer's latches, and the call of the Transfer Primitive (R117). -/
inductive MicroOp where
  | sdaHigh | sdaLow | sclHigh | sclLow | sdaIn | sdaOut | sclOut
  | strobe | waitSclHigh
  | delay (t : Duration)
  | writeDr (v : Byte)
  | writeDrOperand
  | writeDrAck
  | enableUnit
  | writeSr (v : Byte)
  | writeSrMask
  | testFlag
  | readDr
  | keepByte
  | composeAddress
  | resultAck
  | resultByte
  | callXfer (m : Byte)
  deriving DecidableEq, Repr

/-- What a micro-operation writes. At most one named register, but for the strobe (R41); SEQ is not written here. -/
def applyOp (op : MicroOp) (s : State) : State :=
  match op with
  | .sdaHigh => { s with sdaPort := true }                                        -- R81
  | .sdaLow => { s with sdaPort := false }                                        -- R81
  | .sclHigh => { s with sclPort := true }                                        -- R82
  | .sclLow => { s with sclPort := false }                                        -- R82
  | .sdaIn => { s with sdaDir := false }                                          -- R83
  | .sdaOut => { s with sdaDir := true }                                          -- R83
  | .sclOut => { s with sclDir := true }                                          -- R84
  | .strobe => countStrobe { s with sclPort := !s.sclPort }                       -- R86
  | .waitSclHigh => s                                                             -- R87
  | .delay _ => s                                                                 -- R88
  | .writeDr v => { s with dr := v }                                              -- R102
  | .writeDrOperand => { s with dr := s.opdD }                                    -- R135 WB0
  | .writeDrAck => { s with dr := ackValue s.opdF }                               -- R136 RD4
  | .enableUnit => { s with en := true }                                          -- R95, R120 IN5
  | .writeSr v => writeStatus v s                                                 -- R100
  | .writeSrMask => writeStatus s.xmask s                                         -- R111 XF1
  | .testFlag => s                                                                -- R111 XF7
  | .readDr => { s with tmp := s.dr }                                             -- R103, R111 XF8
  | .keepByte => { s with rbuf := s.tmp }                                         -- R136 RD2
  | .composeAddress => { s with opdD := Machine.composeAddress s.opdD s.opdF }    -- R137 WA0
  | .resultAck => { s with res := ackResult s.tmp }                               -- R135 WB5
  | .resultByte => { s with res := s.rbuf }                                       -- R136 RD6
  | .callXfer m => { s with xmask := m }                                          -- R117

/-! ### Reset (R170, R171) -/

/-- Reset: every register of R32 at its reset value, whatever was running; the inputs, the coming moves and the observer
are not the block's and stay. settle() runs at its end and sets SCLQ. Log entry 18. -/
def resetBlock (s : State) : State :=
  finish s { State.reset with
    peerSdaLow := s.peerSdaLow
    peerSclLow := s.peerSclLow
    sched := s.sched
    obsPending := s.obsPending
    obsTrace := s.obsTrace }

end Sys2Proof.Machine
end

