-- ==== Sys2Proof/Machine/Microcode.lean ====
section
/-! DEFINITION. The micro-programs and the sequencer: which micro-operation stands at each micro-step (R111, R120, R121,
R122, R135, R136, R137), which step follows (R21), and one step of the block (R41). The micro-programs are fixed and not
state (R53). -/

namespace Sys2Proof.Machine

/-! ### The tables -/

/-- The micro-operation of each micro-step of the six commands. -/
def commandOp : MicroStep → MicroOp
  -- INIT (R120)
  | .in0 => .sdaOut
  | .in1 => .sclOut
  | .in2 => .sdaHigh
  | .in3 => .sclHigh
  | .in4 => .writeDr Config.idleFill
  | .in5 => .enableUnit
  | .in6 => .writeSr Config.initStatus
  -- START (R121)
  | .st0 => .sdaHigh
  | .st1 => .sclHigh
  | .st2 => .waitSclHigh
  | .st3 => .delay .tSettle
  | .st4 => .sdaLow
  | .st5 => .delay .tSettle
  | .st6 => .sclLow
  | .st7 => .sdaHigh
  -- STOP (R122)
  | .sp0 => .sdaLow
  | .sp1 => .sclHigh
  | .sp2 => .waitSclHigh
  | .sp3 => .delay .tSettle
  | .sp4 => .sdaHigh
  | .sp5 => .delay .tStop
  -- WRB (R135)
  | .wb0 => .writeDrOperand
  | .wb1 => .callXfer Config.xmaskByte
  | .wb2 => .sdaIn
  | .wb3 => .callXfer Config.xmaskBit
  | .wb4 => .sdaOut
  | .wb5 => .resultAck
  -- RDB (R136)
  | .rd0 => .sdaIn
  | .rd1 => .callXfer Config.xmaskByte
  | .rd2 => .keepByte
  | .rd3 => .sdaOut
  | .rd4 => .writeDrAck
  | .rd5 => .callXfer Config.xmaskBit
  | .rd6 => .resultByte
  -- WRA (R137)
  | .wa0 => .composeAddress

/-- The micro-operation of each step of the Transfer Primitive (R111). -/
def xferOp : XferStep → MicroOp
  | .xf0 => .sclLow
  | .xf1 => .writeSrMask
  | .xf2 => .delay .tXlow
  | .xf3 => .strobe
  | .xf4 => .waitSclHigh
  | .xf5 => .delay .tXhigh
  | .xf6 => .strobe
  | .xf7 => .testFlag
  | .xf8 => .readDr
  | .xf9 => .writeDr Config.idleFill

/-- The micro-operation at SEQ: the primitive's step when XPC is not NONE, the command's otherwise (R41). -/
def opAt (st : MicroStep) : Option XferStep → MicroOp
  | none => commandOp st
  | some x => xferOp x

/-- OP of R21, from the micro-step. -/
def opOf : MicroStep → Op
  | .in0 | .in1 | .in2 | .in3 | .in4 | .in5 | .in6 => .init
  | .st0 | .st1 | .st2 | .st3 | .st4 | .st5 | .st6 | .st7 => .start
  | .sp0 | .sp1 | .sp2 | .sp3 | .sp4 | .sp5 => .stop
  | .wb0 | .wb1 | .wb2 | .wb3 | .wb4 | .wb5 => .wrb
  | .rd0 | .rd1 | .rd2 | .rd3 | .rd4 | .rd5 | .rd6 => .rdb
  | .wa0 => .wra

/-- UPC of R21, from the micro-step. -/
def upcOf : MicroStep → Nat
  | .in0 | .st0 | .sp0 | .wb0 | .rd0 | .wa0 => 0
  | .in1 | .st1 | .sp1 | .wb1 | .rd1 => 1
  | .in2 | .st2 | .sp2 | .wb2 | .rd2 => 2
  | .in3 | .st3 | .sp3 | .wb3 | .rd3 => 3
  | .in4 | .st4 | .sp4 | .wb4 | .rd4 => 4
  | .in5 | .st5 | .sp5 | .wb5 | .rd5 => 5
  | .in6 | .st6 | .rd6 => 6
  | .st7 => 7

/-- SEQ.OP (R21). -/
def seqOp : Sequencer → Op
  | .idle => .idle
  | .run st _ => opOf st

/-- SEQ.UPC (R21). -/
def seqUpc : Sequencer → Nat
  | .idle => 0
  | .run st _ => upcOf st

/-- SEQ.XPC (R21). -/
def seqXpc : Sequencer → Option XferStep
  | .idle => none
  | .run _ x => x

/-! ### Which step follows (R21, R117) -/

/-- The step after a micro-step of a command: the next of its micro-program; `done` after the last (R70); WB0 after WA0
(R137). -/
def afterStep : MicroStep → Sequencer
  | .in0 => .run .in1 none
  | .in1 => .run .in2 none
  | .in2 => .run .in3 none
  | .in3 => .run .in4 none
  | .in4 => .run .in5 none
  | .in5 => .run .in6 none
  | .in6 => .idle
  | .st0 => .run .st1 none
  | .st1 => .run .st2 none
  | .st2 => .run .st3 none
  | .st3 => .run .st4 none
  | .st4 => .run .st5 none
  | .st5 => .run .st6 none
  | .st6 => .run .st7 none
  | .st7 => .idle
  | .sp0 => .run .sp1 none
  | .sp1 => .run .sp2 none
  | .sp2 => .run .sp3 none
  | .sp3 => .run .sp4 none
  | .sp4 => .run .sp5 none
  | .sp5 => .idle
  | .wb0 => .run .wb1 none
  | .wb1 => .run .wb2 none
  | .wb2 => .run .wb3 none
  | .wb3 => .run .wb4 none
  | .wb4 => .run .wb5 none
  | .wb5 => .idle
  | .rd0 => .run .rd1 none
  | .rd1 => .run .rd2 none
  | .rd2 => .run .rd3 none
  | .rd3 => .run .rd4 none
  | .rd4 => .run .rd5 none
  | .rd5 => .run .rd6 none
  | .rd6 => .idle
  | .wa0 => .run .wb0 none

/-- The step after a step of the Transfer Primitive called from `st`: the next of R111; after XF9 the caller's next step
(`return`, R117). The branch of XF7 is in `nextSeq`. -/
def afterXfer (st : MicroStep) : XferStep → Sequencer
  | .xf0 => .run st (some .xf1)
  | .xf1 => .run st (some .xf2)
  | .xf2 => .run st (some .xf3)
  | .xf3 => .run st (some .xf4)
  | .xf4 => .run st (some .xf5)
  | .xf5 => .run st (some .xf6)
  | .xf6 => .run st (some .xf7)
  | .xf7 => .run st (some .xf8)
  | .xf8 => .run st (some .xf9)
  | .xf9 => afterStep st

/-- The step that follows in micro-program order. -/
def follow (st : MicroStep) : Option XferStep → Sequencer
  | none => afterStep st
  | some x => afterXfer st x

/-- SEQ after the micro-operation at `st`, `xpc` (R21): a wait stays until the clock line is high (R87); a call enters
the primitive (R117); the test of CF leaves the loop or goes back to XF2 (R111); everything else follows in order. -/
def nextSeq (st : MicroStep) (xpc : Option XferStep) (s : State) : Sequencer :=
  match opAt st xpc with
  | .waitSclHigh => if sclLine s then follow st xpc else .run st xpc
  | .callXfer _ => .run st (some .xf0)
  | .testFlag => .run st (some (if s.cf then .xf8 else .xf2))
  | _ => follow st xpc

/-! ### One step of the block (R41) -/

/-- The micro-step at `st`, `xpc`: the micro-operation, SEQ, settle(), and the observer looks. -/
def microStep (st : MicroStep) (xpc : Option XferStep) (s : State) : State :=
  finish s { applyOp (opAt st xpc) s with seq := nextSeq st xpc s }

/-- A block step (R41): enabled when SEQ.OP != IDLE; an idle sequencer has no step (R161). -/
def blockStep (s : State) : State :=
  match s.seq with
  | .idle => s
  | .run st xpc => microStep st xpc s

end Sys2Proof.Machine
end

