-- ==== Sys2Proof/Machine/Agents.lean ====
section
/-! DEFINITION. The agents' moves (20_memory.md R40 to R43) and their interleaving: one turn, and the turns of a command
from its acceptance to its end. -/

namespace Sys2Proof.Machine

/-- A peer step (R42): the two inputs take any values, then settle(). -/
def peerStep (sdaLow sclLow : Bool) (s : State) : State :=
  finish s { s with peerSdaLow := sdaLow, peerSclLow := sclLow }

/-- One move of one agent: the first of `sched`, or the block's when none stands there. The host has no move while
BUSY = 1 (R43), so a host turn that comes then waits and the block moves (log entry 8). A command word that stands first
in an idle state is not taken here: `fetch` takes it. -/
def turn (s : State) : State :=
  match s.sched with
  | [] => blockStep s
  | .block :: rest => blockStep { s with sched := rest }
  | .peer sdaLow sclLow :: rest => peerStep sdaLow sclLow { s with sched := rest }
  | .reset :: rest => resetBlock { s with sched := rest }
  | .hostRead :: rest => if busy s then blockStep s else { s with sched := rest }
  | .host _ :: _ => blockStep s

/-- Turns while `going` holds, at most `fuel` of them. -/
def runWhile (going : State → Bool) : Nat → State → State
  | 0, s => s
  | fuel + 1, s => if going s then runWhile going fuel (turn s) else s

/-- How many turns a command is given: every move that stands in `sched`, and more steps of the block than the longest
command has (WRA has 69). A command that is still running after them is blocked at a wait under a peer that holds the
clock, or in the loop of R174. Log entry 3. -/
def turnBudget (s : State) : Nat := s.sched.length + 128

/-- The turns of a running command, until BUSY falls (R57, R70). -/
def runCommand (s : State) : State := runWhile busy (turnBudget s) s

/-- Whether the sequencer is inside the Transfer Primitive (R21): XPC is not NONE. -/
def inXfer (s : State) : Bool :=
  match s.seq with
  | .idle => false
  | .run _ xpc => xpc.isSome

/-- The turns of a called Transfer Primitive, until it returns (R117). -/
def runXfer (s : State) : State := runWhile inXfer (turnBudget s) s

/-- The acceptance of a command (R69): OPD is loaded and SEQ stands at the command's first step. No line changes, and
R44 names no settle() here (log entry 13). -/
def accept (first : MicroStep) (f : Bool) (d : Byte) (s : State) : State :=
  { loadOperands f d s with seq := .run first none }

/-- A host command: accepted and run to its end. In a busy state it cannot be presented (R69). -/
def issue (first : MicroStep) (f : Bool) (d : Byte) (s : State) : Host.Outcome State Fault Refusal :=
  match s.seq with
  | .idle => .next (runCommand (accept first f d s))
  | .run _ _ => .refused .busy

/-- `call XFER(m)` at the micro-step `st` (R117), as one step of the block. -/
def callXfer (m : Byte) (st : MicroStep) (s : State) : State :=
  finish s { s with xmask := m, seq := .run st (some .xf0) }

/-- The Transfer Primitive, called with the mask `m` by the micro-step at SEQ and run until it returns. -/
def transfer (m : Byte) (s : State) : Host.Outcome State Fault Refusal :=
  match s.seq with
  | .idle => .refused .noCaller
  | .run _ (some _) => .refused .nestedCall
  | .run st none => .next (runXfer (callXfer m st s))

end Sys2Proof.Machine
end

