-- ==== Sys2Proof/Machine/ByteOps.lean ====
section
/-! DEFINITION. The meanings of WRB, RDB and WRA (44_byte_operations.md). Their micro-programs stand in
Machine/Microcode.lean. -/

namespace Sys2Proof.Machine

/-- WRB (R135): micro-steps WB0 to WB5, with D the byte to write. -/
def execWrb (d : Byte) (s : State) : Host.Outcome State Fault Refusal := issue .wb0 false d s

/-- RDB (R136): micro-steps RD0 to RD6, with F = requestMore. -/
def execRdb (more : Bool) (s : State) : Host.Outcome State Fault Refusal := issue .rd0 more 0x00#8 s

/-- WRA (R137): micro-step WA0, then WB0 to WB5, with D[6:0] the address and F = isWrite. -/
def execWra (d : Byte) (isWrite : Bool) (s : State) : Host.Outcome State Fault Refusal := issue .wa0 isWrite d s

end Sys2Proof.Machine
end

