-- ==== Sys2Proof/Machine/Protocol.lean ====
section
/-! DEFINITION. The meanings of INIT, START and STOP (43_protocol_operations.md). Their micro-programs stand in
Machine/Microcode.lean. -/

namespace Sys2Proof.Machine

/-- INIT (R120): micro-steps IN0 to IN6. -/
def execInit (s : State) : Host.Outcome State Fault Refusal := issue .in0 false 0x00#8 s

/-- START (R121): micro-steps ST0 to ST7. -/
def execStart (s : State) : Host.Outcome State Fault Refusal := issue .st0 false 0x00#8 s

/-- STOP (R122): micro-steps SP0 to SP5. -/
def execStop (s : State) : Host.Outcome State Fault Refusal := issue .sp0 false 0x00#8 s

end Sys2Proof.Machine
end

