-- ==== Sys2Proof/Machine/Transfer.lean ====
section
/-! DEFINITION. The meanings of the two modes of the Transfer Primitive (42_transfer_primitive.md). Its micro-program
stands in Machine/Microcode.lean. -/

namespace Sys2Proof.Machine

/-- XFER.BYTE (R111): `call XFER(0xF0)`, micro-steps XF0 to XF9 with sixteen strobes. -/
def execXferByte (s : State) : Host.Outcome State Fault Refusal := transfer Config.xmaskByte s

/-- XFER.BIT (R111): `call XFER(0xFE)`, micro-steps XF0 to XF9 with two strobes. -/
def execXferBit (s : State) : Host.Outcome State Fault Refusal := transfer Config.xmaskBit s

end Sys2Proof.Machine
end

