-- ==== Sys2Proof/Machine/Dispatch.lean ====
section
/-! DEFINITION. The meaning of each instruction, one arm per constructor. -/

namespace Sys2Proof.Machine

/-- The effect of an instruction. -/
def exec (i : Instr) (s : State) : Host.Outcome State Fault Refusal :=
  match i with
  | .init => Sys2Proof.Machine.execInit s
  | .start => Sys2Proof.Machine.execStart s
  | .stop => Sys2Proof.Machine.execStop s
  | .wrb d => Sys2Proof.Machine.execWrb d s
  | .rdb more => Sys2Proof.Machine.execRdb more s
  | .wra d isWrite => Sys2Proof.Machine.execWra d isWrite s
  | .xferByte => Sys2Proof.Machine.execXferByte s
  | .xferBit => Sys2Proof.Machine.execXferBit s

end Sys2Proof.Machine
end

