-- ==== Sys2Proof/WellFormed.lean ====
section
/-! DEFINITION. Which instructions have an encoding. The types of the operands carry every width of R60 but one: the
address of WRA sits in the byte D, whose bit 7 must be 0 (R60, R65). -/

namespace Sys2Proof

/-- The check: the address of WRA is a 7-bit number (R137, D23). -/
def Instr.wellFormed : Instr → Bool
  | .wra d _ => !d.getLsbD 7
  | .init | .start | .stop | .wrb _ | .rdb _ | .xferByte | .xferBit => true

/-- `Instr.wellFormed` as a proposition. -/
abbrev Instr.WellFormed (i : Instr) : Prop := i.wellFormed = true

end Sys2Proof
end

