-- ==== Sys2Proof/Decode.lean ====
section
/-! DEFINITION. The decoder and the encoder of 30_encoding.md: command words (R60, R61, R65), transfer masks (R63,
R64), assembler lines (R67). -/

namespace Sys2Proof

/-! ### Fields of a command word (R60) -/

/-- OPC, bits 15:12. -/
def opcField (w : CmdWord) : BitVec 4 := w.extractLsb' 12 4

/-- Z, bits 11:9. -/
def zField (w : CmdWord) : BitVec 3 := w.extractLsb' 9 3

/-- F, bit 8. -/
def fField (w : CmdWord) : Bool := w.getLsbD 8

/-- D, bits 7:0. -/
def dField (w : CmdWord) : Byte := w.extractLsb' 0 8

/-! ### The opcode map (R61) -/

/-- A row of R61: a word is this row's command exactly when `(w and mask) = pattern`. -/
structure CmdRow where
  op : Opcode
  pattern : CmdWord
  mask : CmdWord
  deriving DecidableEq, Repr

/-- The columns `match` and `mask` of R61. -/
def cmdRows : List CmdRow :=
  [ ⟨.init,  0x1000#16, 0xFFFF#16⟩,
    ⟨.start, 0x2000#16, 0xFFFF#16⟩,
    ⟨.stop,  0x3000#16, 0xFFFF#16⟩,
    ⟨.wrb,   0x4000#16, 0xFF00#16⟩,
    ⟨.rdb,   0x5000#16, 0xFEFF#16⟩,
    ⟨.wra,   0x6000#16, 0xFE80#16⟩ ]

/-- Whether a word is the command of a row (R61). -/
def rowMatches (w : CmdWord) (r : CmdRow) : Bool := w &&& r.mask == r.pattern

/-- The operands of a command, from the fields of its word (R62). -/
def commandOf (op : Opcode) (w : CmdWord) : Instr :=
  match op with
  | .init => .init
  | .start => .start
  | .stop => .stop
  | .wrb => .wrb (dField w)
  | .rdb => .rdb (fField w)
  | .wra => .wra (dField w) (fField w)

/-- The operation an OPC names (R61), whatever the other fields hold. -/
def opcodeOf (opc : BitVec 4) : Option Opcode :=
  if opc = 1#4 then some .init
  else if opc = 2#4 then some .start
  else if opc = 3#4 then some .stop
  else if opc = 4#4 then some .wrb
  else if opc = 5#4 then some .rdb
  else if opc = 6#4 then some .wra
  else none

/-- The ground of R65 on which a word of no row is reserved; of several, the one of the higher bits. Log entry 16. -/
def reservedReason (w : CmdWord) : DecodeError :=
  match opcodeOf (opcField w) with
  | none => .reservedOpcode
  | some op =>
    if zField w ≠ 0#3 then .zFieldSet
    else match op with
      | .wra => .addressTooWide
      | .rdb => .byteOperandSet
      | .wrb => .flagOperandSet
      | .init | .start | .stop => if fField w then .flagOperandSet else .byteOperandSet

/-- Decode a command word (R61); a word of no row is reserved (R65). -/
def decodeCmd (w : CmdWord) : Except DecodeError Instr :=
  match cmdRows.find? (rowMatches w) with
  | some r => .ok (commandOf r.op w)
  | none => .error (reservedReason w)

/-- Decode a transfer mask: exactly two are used (R64). -/
def decodeMask (m : Byte) : Except DecodeError Instr :=
  if m = Config.xmaskByte then .ok .xferByte
  else if m = Config.xmaskBit then .ok .xferBit
  else .error .unknownMask

/-- Decode a word of either kind. -/
def decode : Code → Except DecodeError Instr
  | .command w => decodeCmd w
  | .mask m => decodeMask m

/-- The instruction of a word of `nbits` bits, for the host's check of the opcode table. -/
def decodeTableWord (nbits w : Nat) : Option Instr :=
  if nbits = 16 ∧ w < 2 ^ 16 then (decodeCmd (BitVec.ofNat 16 w)).toOption
  else if nbits = 8 ∧ w < 2 ^ 8 then (decodeMask (BitVec.ofNat 8 w)).toOption
  else none

/-! ### The encoder -/

/-- A command word from its fields, Z being 000 (R60). -/
def packFields (opc : BitVec 4) (f : Bool) (d : Byte) : CmdWord :=
  ((opc ++ 0#3) ++ BitVec.ofBool f) ++ d

/-- The word of an instruction (R61, R64, R67). -/
def encode : Instr → Code
  | .init => .command (packFields 1#4 false 0#8)
  | .start => .command (packFields 2#4 false 0#8)
  | .stop => .command (packFields 3#4 false 0#8)
  | .wrb d => .command (packFields 4#4 false d)
  | .rdb more => .command (packFields 5#4 more 0#8)
  | .wra d isWrite => .command (packFields 6#4 isWrite d)
  | .xferByte => .mask Config.xmaskByte
  | .xferBit => .mask Config.xmaskBit

/-- Assemble a line (R67): "An operand out of range is an assembly error, never a truncation." -/
def assemble : Asm → Option Instr
  | .init => some .init
  | .start => some .start
  | .stop => some .stop
  | .wrb b => if b ≤ 255 then some (.wrb (BitVec.ofNat 8 b)) else none
  | .rdb more => some (.rdb more)
  | .wra a isWrite => if a ≤ 127 then some (.wra (BitVec.ofNat 8 a) isWrite) else none

end Sys2Proof
end

