-- ==== Sys2Proof/Machine/Fetch.lean ====
section
/-! DEFINITION. Where the machine's next instruction comes from: the word the host presents in an idle state (R69), or
the mask at a call step of the running micro-program (R117). Log entries 6 and 7. -/

namespace Sys2Proof.Machine

/-- The mask a micro-step calls the Transfer Primitive with: WB1, WB3, RD1 and RD5 do (R115). -/
def callMask (st : MicroStep) : Option Byte :=
  match commandOp st with
  | .callXfer m => some m
  | _ => none

/-- What comes next, with the state in which it is executed. -/
inductive Fetched where
  /-- A word of an instruction. -/
  | word (c : Code) (s : State)
  /-- A single move of an agent. -/
  | move
  deriving DecidableEq, Repr

/-- The next instruction word, when the next move is the host's presenting one in an idle state or the block's calling
the Transfer Primitive; any other move is a single turn. -/
def fetch (s : State) : Fetched :=
  match s.seq with
  | .idle =>
    match s.sched with
    | .host w :: rest => .word (.command w) { s with sched := rest }
    | _ => .move
  | .run _ (some _) => .move
  | .run st none =>
    match callMask st with
    | none => .move
    | some m =>
      match s.sched with
      | .block :: rest => .word (.mask m) { s with sched := rest }
      | .peer _ _ :: _ => .move
      | .reset :: _ => .move
      | .host _ :: _ => .word (.mask m) s
      | .hostRead :: _ => .word (.mask m) s
      | [] => .word (.mask m) s

/-- The micro-step at which the sequencer calls the Transfer Primitive with the mask `m`, if one does. -/
def callSite (m : Byte) : Option MicroStep :=
  if m = Config.xmaskByte then some .wb1
  else if m = Config.xmaskBit then some .wb3
  else none

/-- `s` with the word `w` of `nbits` bits where `fetch` finds it next. A mask of eight bits stands in the fixed
micro-program (R53): the sequencer is put at a step that calls it, and the block's move is put first. Any other word is
a command word that the idle host presents next; so is a mask that no step calls, and as a command word it is reserved
(its OPC is 0). -/
def placeWord (s : State) (nbits w : Nat) : State :=
  match (if nbits = 8 then callSite (BitVec.ofNat 8 w) else none) with
  | some st => { s with seq := .run st none, sched := .block :: s.sched }
  | none => { s with seq := .idle, sched := .host (BitVec.ofNat 16 w) :: s.sched }

end Sys2Proof.Machine
end

