-- ==== Sys2Proof/Machine/Step.lean ====
section
/-! DEFINITION. One step of the machine. -/

namespace Sys2Proof.Machine

/-- One step: an instruction, when one comes next, or a single move of an agent. A reserved word is refused (R65). -/
def step (s : State) : Host.Outcome State Fault Refusal :=
  match fetch s with
  | .word c t =>
    match decode c with
    | .ok i => exec i t
    | .error why => .refused (.reservedWord why)
  | .move => .next (turn s)

/-- `s` with the word `w` placed where `step` fetches its next instruction (log entry 6). -/
def State.withFetchWord (s : State) (nbits w : Nat) : State := placeWord s nbits w

end Sys2Proof.Machine
end

