-- ==== Sys2Proof/Safety.lean ====
section
/-! DEFINITION. What claims about the machine are stated in: settled states, the invariants of 10_state.md R33 to R35,
conditions on the peer (60_exceptions.md R163), blocking (R153), the bits of a byte on the wire (R47). -/

namespace Sys2Proof.Safety

open Sys2Proof.Machine

/-! ### Invariants -/

/-- settle() has nothing left to do (R44): SCLQ is the clock level, and OL is DR[7] while the latch is transparent. -/
def Settled (s : State) : Prop :=
  s.sclq = sclLine s ∧ ((s.en = false ∨ sclLine s = false) → s.ol = s.dr.getLsbD 7)

/-- The steps at which SDA_DIR may be 0 after INIT (R34): inside WRB between WB2 and WB4, inside RDB between RD0 and
RD3. -/
def inputWindow : Sequencer → Bool
  | .run .wb3 _ | .run .wb4 _ | .run .rd1 _ | .run .rd2 _ | .run .rd3 _ => true
  | _ => false

/-- The steps at which SDA_PORT may be 0: between ST4 and ST7, between SP0 and SP4. -/
def pulledWindow : Sequencer → Bool
  | .run .st5 _ | .run .st6 _ | .run .st7 _ => true
  | .run .sp1 _ | .run .sp2 _ | .run .sp3 _ | .run .sp4 _ => true
  | _ => false

/-- The steps of INIT after IN0 (R120). -/
def sdaConfigured : Sequencer → Bool
  | .run .in1 _ | .run .in2 _ | .run .in3 _ | .run .in4 _ | .run .in5 _ | .run .in6 _ => true
  | _ => false

/-- The steps of INIT after IN1 (R120). -/
def sclConfigured : Sequencer → Bool
  | .run .in2 _ | .run .in3 _ | .run .in4 _ | .run .in5 _ | .run .in6 _ => true
  | _ => false

/-- XPC is not NONE only at a step that calls the Transfer Primitive, and XMASK then holds that call's mask (R21, R22,
R117). -/
def CallOk (s : State) : Prop :=
  match s.seq with
  | .run st (some _) => callMask st = some s.xmask
  | _ => True

/-- The directions and the level latch of the data line as R34 and R35 want them, with what the steps of INIT have
already set; `en` stands for "INIT has reached IN5". -/
structure LineInv (s : State) : Prop where
  callOk : CallOk s
  sclDir_of_en : s.en = true → s.sclDir = true
  sdaDir_of_en : s.en = true → s.sdaDir = true ∨ inputWindow s.seq = true
  sdaPort_or : s.sdaPort = true ∨ pulledWindow s.seq = true
  sdaDir_of_init : sdaConfigured s.seq = true → s.sdaDir = true
  sclDir_of_init : sclConfigured s.seq = true → s.sclDir = true

/-- The operation boundary of R35: idle, INIT has run, both lines outputs, the data level latch released. -/
structure Boundary (s : State) : Prop where
  idle : s.seq = .idle
  sdaDir : s.sdaDir = true
  sclDir : s.sclDir = true
  sdaPort : s.sdaPort = true
  en : s.en = true

/-- What R35 adds after WRB, RDB or WRA, with OL as R113 leaves it. -/
structure AfterByte (s : State) : Prop where
  sclPort : s.sclPort = false
  dr : s.dr = 0xFF#8
  ol : s.ol = true
  cf : s.cf = true
  cnt : s.cnt = 0#4

/-- The idle bus of R33 with the clock and the data line released by the master. -/
structure IdleBus (s : State) : Prop where
  sdaDir : s.sdaDir = true
  sclDir : s.sclDir = true
  sdaPort : s.sdaPort = true
  sclPort : s.sclPort = true
  released : s.ol = true ∨ s.en = false

/-! ### The peer and the platform -/

/-- The peer of P6: it pulls neither line now (R163). -/
structure Silent (s : State) : Prop where
  sda : s.peerSdaLow = false
  scl : s.peerSclLow = false

/-- No reset stands among the coming moves. -/
def noReset (moves : List Turn) : Bool :=
  moves.all fun m => match m with
    | .reset => false
    | _ => true

/-- The level the peer leaves on the clock line when the moves that can come during a command are over: a host's move
waits until the command has ended (R43), and what stands behind it waits too. -/
def finalSclLow : Bool → List Turn → Bool
  | now, [] => now
  | _, .peer _ sclLow :: rest => finalSclLow sclLow rest
  | now, .block :: rest => finalSclLow now rest
  | now, .reset :: _ => now
  | now, .host _ :: _ => now
  | now, .hostRead :: _ => now

/-- The peer of P2: whatever it does to the two lines in between, it releases the clock in the end; and the platform
does not reset. -/
structure ClockReleased (s : State) : Prop where
  noReset : noReset s.sched = true
  released : finalSclLow s.peerSclLow s.sched = false

/-! ### Blocking (R153) -/

/-- The block stands at a wait for the clock line and the line is low (R87). -/
def Blocked (s : State) : Prop :=
  sclLine s = false ∧ ∃ st xpc, s.seq = .run st xpc ∧ opAt st xpc = .waitSclHigh

/-! ### Bits on the wire -/

/-- The bits of a byte in the order they travel: most significant first (R47). -/
def bitsOf (b : Byte) : List Bool :=
  [b.getLsbD 7, b.getLsbD 6, b.getLsbD 5, b.getLsbD 4, b.getLsbD 3, b.getLsbD 2, b.getLsbD 1, b.getLsbD 0]

/-- What the bus observer emits for a byte and its acknowledge level (R140). -/
def wireByte (b : Byte) (ack : Bool) : List BusEvent :=
  (bitsOf b).map BusEvent.bit ++ [BusEvent.bit ack]

/-- The moves of the acknowledging peer P5 during a WRB that begins with the clock low: 51 block steps to the falling
edge of the eighth pulse, the pull on SDA, 12 block steps to the falling edge of the ninth, the release. -/
def ackMoves : List Turn :=
  List.replicate 51 Turn.block ++ [.peer true false] ++ List.replicate 12 Turn.block ++ [.peer false false]

/-- The moves around one pulse of a sending peer: the drive for the bit, then the block's steps to the falling edge. -/
def sendBit (steps : Nat) (level : Bool) : List Turn :=
  .peer (!level) false :: List.replicate steps Turn.block

/-- The moves of a peer that sends `v` during an RDB that begins with the clock low, and releases the data line for the
ninth pulse. It changes its drive only while the clock is low (P3): after RD0, and after each falling edge. -/
def sendMoves (v : Byte) : List Turn :=
  [.block] ++ sendBit 8 (v.getLsbD 7) ++ sendBit 6 (v.getLsbD 6) ++ sendBit 6 (v.getLsbD 5) ++
    sendBit 6 (v.getLsbD 4) ++ sendBit 6 (v.getLsbD 3) ++ sendBit 6 (v.getLsbD 2) ++ sendBit 6 (v.getLsbD 1) ++
    sendBit 6 (v.getLsbD 0) ++ [.peer false false]

/-! ### Outcomes -/

/-- The outcome with `f` applied to its next state. -/
def mapNext (f : State → State) : Host.Outcome State Fault Refusal → Host.Outcome State Fault Refusal
  | .next t => .next (f t)
  | .fault r => .fault r
  | .refused r => .refused r

/-- The first micro-step of a host command (R69). -/
def firstStep : Instr → Option MicroStep
  | .init => some .in0
  | .start => some .st0
  | .stop => some .sp0
  | .wrb _ => some .wb0
  | .rdb _ => some .rd0
  | .wra _ _ => some .wa0
  | .xferByte | .xferBit => none

/-- `n` turns. -/
def turns : Nat → State → State
  | 0, s => s
  | n + 1, s => turns n (turn s)

/-- `n` pairs of START and STOP with nothing between them (R181). -/
def startStopPairs : Nat → State → Host.Outcome State Fault Refusal
  | 0, s => .next s
  | n + 1, s =>
    match exec .start s with
    | .next t =>
      match exec .stop t with
      | .next u => startStopPairs n u
      | o => o
    | o => o

/-- `n` strobes with nothing between them (R104). -/
def strobes : Nat → State → State
  | 0, s => s
  | n + 1, s => strobes n (applyOp .strobe s)

end Sys2Proof.Safety
end

