-- ==== Sys2Proof/Laws/State.lean ====
section
/-! SUPPORT. One lemma per field and per named update of the state: what the update leaves alone, and what it writes. -/

namespace Sys2Proof.Machine

variable (s : State)

/-! ### The operand latch and the acceptance of a command -/

@[simp] theorem loadOperands_sdaDir (f : Bool) (d : Byte) : (loadOperands f d s).sdaDir = s.sdaDir := rfl
@[simp] theorem loadOperands_sclDir (f : Bool) (d : Byte) : (loadOperands f d s).sclDir = s.sclDir := rfl
@[simp] theorem loadOperands_sdaPort (f : Bool) (d : Byte) : (loadOperands f d s).sdaPort = s.sdaPort := rfl
@[simp] theorem loadOperands_sclPort (f : Bool) (d : Byte) : (loadOperands f d s).sclPort = s.sclPort := rfl
@[simp] theorem loadOperands_dr (f : Bool) (d : Byte) : (loadOperands f d s).dr = s.dr := rfl
@[simp] theorem loadOperands_ol (f : Bool) (d : Byte) : (loadOperands f d s).ol = s.ol := rfl
@[simp] theorem loadOperands_cf (f : Bool) (d : Byte) : (loadOperands f d s).cf = s.cf := rfl
@[simp] theorem loadOperands_cnt (f : Bool) (d : Byte) : (loadOperands f d s).cnt = s.cnt := rfl
@[simp] theorem loadOperands_en (f : Bool) (d : Byte) : (loadOperands f d s).en = s.en := rfl
@[simp] theorem loadOperands_sclq (f : Bool) (d : Byte) : (loadOperands f d s).sclq = s.sclq := rfl
@[simp] theorem loadOperands_seq (f : Bool) (d : Byte) : (loadOperands f d s).seq = s.seq := rfl
@[simp] theorem loadOperands_xmask (f : Bool) (d : Byte) : (loadOperands f d s).xmask = s.xmask := rfl
@[simp] theorem loadOperands_tmp (f : Bool) (d : Byte) : (loadOperands f d s).tmp = s.tmp := rfl
@[simp] theorem loadOperands_rbuf (f : Bool) (d : Byte) : (loadOperands f d s).rbuf = s.rbuf := rfl
@[simp] theorem loadOperands_res (f : Bool) (d : Byte) : (loadOperands f d s).res = s.res := rfl
@[simp] theorem loadOperands_peerSdaLow (f : Bool) (d : Byte) : (loadOperands f d s).peerSdaLow = s.peerSdaLow := rfl
@[simp] theorem loadOperands_peerSclLow (f : Bool) (d : Byte) : (loadOperands f d s).peerSclLow = s.peerSclLow := rfl
@[simp] theorem loadOperands_sched (f : Bool) (d : Byte) : (loadOperands f d s).sched = s.sched := rfl
@[simp] theorem loadOperands_obsPending (f : Bool) (d : Byte) : (loadOperands f d s).obsPending = s.obsPending := rfl
@[simp] theorem loadOperands_obsTrace (f : Bool) (d : Byte) : (loadOperands f d s).obsTrace = s.obsTrace := rfl
@[simp] theorem loadOperands_opdF (f : Bool) (d : Byte) : (loadOperands f d s).opdF = f := rfl
@[simp] theorem loadOperands_opdD (f : Bool) (d : Byte) : (loadOperands f d s).opdD = d := rfl

@[simp] theorem accept_sdaDir (st : MicroStep) (f : Bool) (d : Byte) : (accept st f d s).sdaDir = s.sdaDir := rfl
@[simp] theorem accept_sclDir (st : MicroStep) (f : Bool) (d : Byte) : (accept st f d s).sclDir = s.sclDir := rfl
@[simp] theorem accept_sdaPort (st : MicroStep) (f : Bool) (d : Byte) : (accept st f d s).sdaPort = s.sdaPort := rfl
@[simp] theorem accept_sclPort (st : MicroStep) (f : Bool) (d : Byte) : (accept st f d s).sclPort = s.sclPort := rfl
@[simp] theorem accept_dr (st : MicroStep) (f : Bool) (d : Byte) : (accept st f d s).dr = s.dr := rfl
@[simp] theorem accept_ol (st : MicroStep) (f : Bool) (d : Byte) : (accept st f d s).ol = s.ol := rfl
@[simp] theorem accept_cf (st : MicroStep) (f : Bool) (d : Byte) : (accept st f d s).cf = s.cf := rfl
@[simp] theorem accept_cnt (st : MicroStep) (f : Bool) (d : Byte) : (accept st f d s).cnt = s.cnt := rfl
@[simp] theorem accept_en (st : MicroStep) (f : Bool) (d : Byte) : (accept st f d s).en = s.en := rfl
@[simp] theorem accept_sclq (st : MicroStep) (f : Bool) (d : Byte) : (accept st f d s).sclq = s.sclq := rfl
@[simp] theorem accept_xmask (st : MicroStep) (f : Bool) (d : Byte) : (accept st f d s).xmask = s.xmask := rfl
@[simp] theorem accept_tmp (st : MicroStep) (f : Bool) (d : Byte) : (accept st f d s).tmp = s.tmp := rfl
@[simp] theorem accept_rbuf (st : MicroStep) (f : Bool) (d : Byte) : (accept st f d s).rbuf = s.rbuf := rfl
@[simp] theorem accept_res (st : MicroStep) (f : Bool) (d : Byte) : (accept st f d s).res = s.res := rfl
@[simp] theorem accept_peerSdaLow (st : MicroStep) (f : Bool) (d : Byte) : (accept st f d s).peerSdaLow = s.peerSdaLow := rfl
@[simp] theorem accept_peerSclLow (st : MicroStep) (f : Bool) (d : Byte) : (accept st f d s).peerSclLow = s.peerSclLow := rfl
@[simp] theorem accept_sched (st : MicroStep) (f : Bool) (d : Byte) : (accept st f d s).sched = s.sched := rfl
@[simp] theorem accept_obsPending (st : MicroStep) (f : Bool) (d : Byte) : (accept st f d s).obsPending = s.obsPending := rfl
@[simp] theorem accept_obsTrace (st : MicroStep) (f : Bool) (d : Byte) : (accept st f d s).obsTrace = s.obsTrace := rfl
@[simp] theorem accept_opdF (st : MicroStep) (f : Bool) (d : Byte) : (accept st f d s).opdF = f := rfl
@[simp] theorem accept_opdD (st : MicroStep) (f : Bool) (d : Byte) : (accept st f d s).opdD = d := rfl
@[simp] theorem accept_seq (st : MicroStep) (f : Bool) (d : Byte) : (accept st f d s).seq = .run st none := rfl

/-! ### The status register -/

@[simp] theorem writeStatus_sdaDir (v : Byte) : (writeStatus v s).sdaDir = s.sdaDir := rfl
@[simp] theorem writeStatus_sclDir (v : Byte) : (writeStatus v s).sclDir = s.sclDir := rfl
@[simp] theorem writeStatus_sdaPort (v : Byte) : (writeStatus v s).sdaPort = s.sdaPort := rfl
@[simp] theorem writeStatus_sclPort (v : Byte) : (writeStatus v s).sclPort = s.sclPort := rfl
@[simp] theorem writeStatus_dr (v : Byte) : (writeStatus v s).dr = s.dr := rfl
@[simp] theorem writeStatus_ol (v : Byte) : (writeStatus v s).ol = s.ol := rfl
@[simp] theorem writeStatus_en (v : Byte) : (writeStatus v s).en = s.en := rfl
@[simp] theorem writeStatus_sclq (v : Byte) : (writeStatus v s).sclq = s.sclq := rfl
@[simp] theorem writeStatus_seq (v : Byte) : (writeStatus v s).seq = s.seq := rfl
@[simp] theorem writeStatus_xmask (v : Byte) : (writeStatus v s).xmask = s.xmask := rfl
@[simp] theorem writeStatus_opdF (v : Byte) : (writeStatus v s).opdF = s.opdF := rfl
@[simp] theorem writeStatus_opdD (v : Byte) : (writeStatus v s).opdD = s.opdD := rfl
@[simp] theorem writeStatus_tmp (v : Byte) : (writeStatus v s).tmp = s.tmp := rfl
@[simp] theorem writeStatus_rbuf (v : Byte) : (writeStatus v s).rbuf = s.rbuf := rfl
@[simp] theorem writeStatus_res (v : Byte) : (writeStatus v s).res = s.res := rfl
@[simp] theorem writeStatus_peerSdaLow (v : Byte) : (writeStatus v s).peerSdaLow = s.peerSdaLow := rfl
@[simp] theorem writeStatus_peerSclLow (v : Byte) : (writeStatus v s).peerSclLow = s.peerSclLow := rfl
@[simp] theorem writeStatus_sched (v : Byte) : (writeStatus v s).sched = s.sched := rfl
@[simp] theorem writeStatus_obsPending (v : Byte) : (writeStatus v s).obsPending = s.obsPending := rfl
@[simp] theorem writeStatus_obsTrace (v : Byte) : (writeStatus v s).obsTrace = s.obsTrace := rfl
@[simp] theorem writeStatus_cf (v : Byte) : (writeStatus v s).cf = writtenFlag s.cf v := rfl
@[simp] theorem writeStatus_cnt (v : Byte) : (writeStatus v s).cnt = v.extractLsb' 0 4 := rfl

@[simp] theorem countStrobe_sdaDir  : (countStrobe s).sdaDir = s.sdaDir := by unfold countStrobe; split <;> rfl
@[simp] theorem countStrobe_sclDir  : (countStrobe s).sclDir = s.sclDir := by unfold countStrobe; split <;> rfl
@[simp] theorem countStrobe_sdaPort  : (countStrobe s).sdaPort = s.sdaPort := by unfold countStrobe; split <;> rfl
@[simp] theorem countStrobe_sclPort  : (countStrobe s).sclPort = s.sclPort := by unfold countStrobe; split <;> rfl
@[simp] theorem countStrobe_dr  : (countStrobe s).dr = s.dr := by unfold countStrobe; split <;> rfl
@[simp] theorem countStrobe_ol  : (countStrobe s).ol = s.ol := by unfold countStrobe; split <;> rfl
@[simp] theorem countStrobe_en  : (countStrobe s).en = s.en := by unfold countStrobe; split <;> rfl
@[simp] theorem countStrobe_sclq  : (countStrobe s).sclq = s.sclq := by unfold countStrobe; split <;> rfl
@[simp] theorem countStrobe_seq  : (countStrobe s).seq = s.seq := by unfold countStrobe; split <;> rfl
@[simp] theorem countStrobe_xmask  : (countStrobe s).xmask = s.xmask := by unfold countStrobe; split <;> rfl
@[simp] theorem countStrobe_opdF  : (countStrobe s).opdF = s.opdF := by unfold countStrobe; split <;> rfl
@[simp] theorem countStrobe_opdD  : (countStrobe s).opdD = s.opdD := by unfold countStrobe; split <;> rfl
@[simp] theorem countStrobe_tmp  : (countStrobe s).tmp = s.tmp := by unfold countStrobe; split <;> rfl
@[simp] theorem countStrobe_rbuf  : (countStrobe s).rbuf = s.rbuf := by unfold countStrobe; split <;> rfl
@[simp] theorem countStrobe_res  : (countStrobe s).res = s.res := by unfold countStrobe; split <;> rfl
@[simp] theorem countStrobe_peerSdaLow  : (countStrobe s).peerSdaLow = s.peerSdaLow := by unfold countStrobe; split <;> rfl
@[simp] theorem countStrobe_peerSclLow  : (countStrobe s).peerSclLow = s.peerSclLow := by unfold countStrobe; split <;> rfl
@[simp] theorem countStrobe_sched  : (countStrobe s).sched = s.sched := by unfold countStrobe; split <;> rfl
@[simp] theorem countStrobe_obsPending  : (countStrobe s).obsPending = s.obsPending := by unfold countStrobe; split <;> rfl
@[simp] theorem countStrobe_obsTrace  : (countStrobe s).obsTrace = s.obsTrace := by unfold countStrobe; split <;> rfl
@[simp] theorem countStrobe_cf :
    (countStrobe s).cf = if s.en then nextFlag s.cf s.cnt else s.cf := by unfold countStrobe; split <;> rfl
@[simp] theorem countStrobe_cnt :
    (countStrobe s).cnt = if s.en then nextCount s.cnt else s.cnt := by unfold countStrobe; split <;> rfl

/-! ### settle(): only DR, SCLQ and OL (R44) -/

@[simp] theorem settleShift_sdaDir  : (settleShift s).sdaDir = s.sdaDir := by unfold settleShift; split <;> rfl
@[simp] theorem settleShift_sclDir  : (settleShift s).sclDir = s.sclDir := by unfold settleShift; split <;> rfl
@[simp] theorem settleShift_sdaPort  : (settleShift s).sdaPort = s.sdaPort := by unfold settleShift; split <;> rfl
@[simp] theorem settleShift_sclPort  : (settleShift s).sclPort = s.sclPort := by unfold settleShift; split <;> rfl
@[simp] theorem settleShift_ol  : (settleShift s).ol = s.ol := by unfold settleShift; split <;> rfl
@[simp] theorem settleShift_cf  : (settleShift s).cf = s.cf := by unfold settleShift; split <;> rfl
@[simp] theorem settleShift_cnt  : (settleShift s).cnt = s.cnt := by unfold settleShift; split <;> rfl
@[simp] theorem settleShift_en  : (settleShift s).en = s.en := by unfold settleShift; split <;> rfl
@[simp] theorem settleShift_sclq  : (settleShift s).sclq = s.sclq := by unfold settleShift; split <;> rfl
@[simp] theorem settleShift_seq  : (settleShift s).seq = s.seq := by unfold settleShift; split <;> rfl
@[simp] theorem settleShift_xmask  : (settleShift s).xmask = s.xmask := by unfold settleShift; split <;> rfl
@[simp] theorem settleShift_opdF  : (settleShift s).opdF = s.opdF := by unfold settleShift; split <;> rfl
@[simp] theorem settleShift_opdD  : (settleShift s).opdD = s.opdD := by unfold settleShift; split <;> rfl
@[simp] theorem settleShift_tmp  : (settleShift s).tmp = s.tmp := by unfold settleShift; split <;> rfl
@[simp] theorem settleShift_rbuf  : (settleShift s).rbuf = s.rbuf := by unfold settleShift; split <;> rfl
@[simp] theorem settleShift_res  : (settleShift s).res = s.res := by unfold settleShift; split <;> rfl
@[simp] theorem settleShift_peerSdaLow  : (settleShift s).peerSdaLow = s.peerSdaLow := by unfold settleShift; split <;> rfl
@[simp] theorem settleShift_peerSclLow  : (settleShift s).peerSclLow = s.peerSclLow := by unfold settleShift; split <;> rfl
@[simp] theorem settleShift_sched  : (settleShift s).sched = s.sched := by unfold settleShift; split <;> rfl
@[simp] theorem settleShift_obsPending  : (settleShift s).obsPending = s.obsPending := by unfold settleShift; split <;> rfl
@[simp] theorem settleShift_obsTrace  : (settleShift s).obsTrace = s.obsTrace := by unfold settleShift; split <;> rfl
@[simp] theorem settleShift_dr :
    (settleShift s).dr = if risingEdge s then shiftIn s.dr (sdaLine s) else s.dr := by
  unfold settleShift; split <;> rfl

@[simp] theorem settleClock_sdaDir  : (settleClock s).sdaDir = s.sdaDir := rfl
@[simp] theorem settleClock_sclDir  : (settleClock s).sclDir = s.sclDir := rfl
@[simp] theorem settleClock_sdaPort  : (settleClock s).sdaPort = s.sdaPort := rfl
@[simp] theorem settleClock_sclPort  : (settleClock s).sclPort = s.sclPort := rfl
@[simp] theorem settleClock_dr  : (settleClock s).dr = s.dr := rfl
@[simp] theorem settleClock_ol  : (settleClock s).ol = s.ol := rfl
@[simp] theorem settleClock_cf  : (settleClock s).cf = s.cf := rfl
@[simp] theorem settleClock_cnt  : (settleClock s).cnt = s.cnt := rfl
@[simp] theorem settleClock_en  : (settleClock s).en = s.en := rfl
@[simp] theorem settleClock_seq  : (settleClock s).seq = s.seq := rfl
@[simp] theorem settleClock_xmask  : (settleClock s).xmask = s.xmask := rfl
@[simp] theorem settleClock_opdF  : (settleClock s).opdF = s.opdF := rfl
@[simp] theorem settleClock_opdD  : (settleClock s).opdD = s.opdD := rfl
@[simp] theorem settleClock_tmp  : (settleClock s).tmp = s.tmp := rfl
@[simp] theorem settleClock_rbuf  : (settleClock s).rbuf = s.rbuf := rfl
@[simp] theorem settleClock_res  : (settleClock s).res = s.res := rfl
@[simp] theorem settleClock_peerSdaLow  : (settleClock s).peerSdaLow = s.peerSdaLow := rfl
@[simp] theorem settleClock_peerSclLow  : (settleClock s).peerSclLow = s.peerSclLow := rfl
@[simp] theorem settleClock_sched  : (settleClock s).sched = s.sched := rfl
@[simp] theorem settleClock_obsPending  : (settleClock s).obsPending = s.obsPending := rfl
@[simp] theorem settleClock_obsTrace  : (settleClock s).obsTrace = s.obsTrace := rfl
@[simp] theorem settleClock_sclq : (settleClock s).sclq = sclLine s := rfl

@[simp] theorem settleLatch_sdaDir  : (settleLatch s).sdaDir = s.sdaDir := by unfold settleLatch; split <;> rfl
@[simp] theorem settleLatch_sclDir  : (settleLatch s).sclDir = s.sclDir := by unfold settleLatch; split <;> rfl
@[simp] theorem settleLatch_sdaPort  : (settleLatch s).sdaPort = s.sdaPort := by unfold settleLatch; split <;> rfl
@[simp] theorem settleLatch_sclPort  : (settleLatch s).sclPort = s.sclPort := by unfold settleLatch; split <;> rfl
@[simp] theorem settleLatch_dr  : (settleLatch s).dr = s.dr := by unfold settleLatch; split <;> rfl
@[simp] theorem settleLatch_cf  : (settleLatch s).cf = s.cf := by unfold settleLatch; split <;> rfl
@[simp] theorem settleLatch_cnt  : (settleLatch s).cnt = s.cnt := by unfold settleLatch; split <;> rfl
@[simp] theorem settleLatch_en  : (settleLatch s).en = s.en := by unfold settleLatch; split <;> rfl
@[simp] theorem settleLatch_sclq  : (settleLatch s).sclq = s.sclq := by unfold settleLatch; split <;> rfl
@[simp] theorem settleLatch_seq  : (settleLatch s).seq = s.seq := by unfold settleLatch; split <;> rfl
@[simp] theorem settleLatch_xmask  : (settleLatch s).xmask = s.xmask := by unfold settleLatch; split <;> rfl
@[simp] theorem settleLatch_opdF  : (settleLatch s).opdF = s.opdF := by unfold settleLatch; split <;> rfl
@[simp] theorem settleLatch_opdD  : (settleLatch s).opdD = s.opdD := by unfold settleLatch; split <;> rfl
@[simp] theorem settleLatch_tmp  : (settleLatch s).tmp = s.tmp := by unfold settleLatch; split <;> rfl
@[simp] theorem settleLatch_rbuf  : (settleLatch s).rbuf = s.rbuf := by unfold settleLatch; split <;> rfl
@[simp] theorem settleLatch_res  : (settleLatch s).res = s.res := by unfold settleLatch; split <;> rfl
@[simp] theorem settleLatch_peerSdaLow  : (settleLatch s).peerSdaLow = s.peerSdaLow := by unfold settleLatch; split <;> rfl
@[simp] theorem settleLatch_peerSclLow  : (settleLatch s).peerSclLow = s.peerSclLow := by unfold settleLatch; split <;> rfl
@[simp] theorem settleLatch_sched  : (settleLatch s).sched = s.sched := by unfold settleLatch; split <;> rfl
@[simp] theorem settleLatch_obsPending  : (settleLatch s).obsPending = s.obsPending := by unfold settleLatch; split <;> rfl
@[simp] theorem settleLatch_obsTrace  : (settleLatch s).obsTrace = s.obsTrace := by unfold settleLatch; split <;> rfl
@[simp] theorem settleLatch_ol :
    (settleLatch s).ol = if !s.en || !sclLine s then s.dr.getLsbD 7 else s.ol := by
  unfold settleLatch; split <;> rfl

@[simp] theorem settle_sdaDir  : (settle s).sdaDir = s.sdaDir := by simp [settle]
@[simp] theorem settle_sclDir  : (settle s).sclDir = s.sclDir := by simp [settle]
@[simp] theorem settle_sdaPort  : (settle s).sdaPort = s.sdaPort := by simp [settle]
@[simp] theorem settle_sclPort  : (settle s).sclPort = s.sclPort := by simp [settle]
@[simp] theorem settle_cf  : (settle s).cf = s.cf := by simp [settle]
@[simp] theorem settle_cnt  : (settle s).cnt = s.cnt := by simp [settle]
@[simp] theorem settle_en  : (settle s).en = s.en := by simp [settle]
@[simp] theorem settle_seq  : (settle s).seq = s.seq := by simp [settle]
@[simp] theorem settle_xmask  : (settle s).xmask = s.xmask := by simp [settle]
@[simp] theorem settle_opdF  : (settle s).opdF = s.opdF := by simp [settle]
@[simp] theorem settle_opdD  : (settle s).opdD = s.opdD := by simp [settle]
@[simp] theorem settle_tmp  : (settle s).tmp = s.tmp := by simp [settle]
@[simp] theorem settle_rbuf  : (settle s).rbuf = s.rbuf := by simp [settle]
@[simp] theorem settle_res  : (settle s).res = s.res := by simp [settle]
@[simp] theorem settle_peerSdaLow  : (settle s).peerSdaLow = s.peerSdaLow := by simp [settle]
@[simp] theorem settle_peerSclLow  : (settle s).peerSclLow = s.peerSclLow := by simp [settle]
@[simp] theorem settle_sched  : (settle s).sched = s.sched := by simp [settle]
@[simp] theorem settle_obsPending  : (settle s).obsPending = s.obsPending := by simp [settle]
@[simp] theorem settle_obsTrace  : (settle s).obsTrace = s.obsTrace := by simp [settle]
@[simp] theorem sclLine_settleShift : sclLine (settleShift s) = sclLine s := by simp [sclLine, masterSclLow]
@[simp] theorem sclLine_settleClock : sclLine (settleClock s) = sclLine s := by simp [sclLine, masterSclLow]
@[simp] theorem sclLine_settle : sclLine (settle s) = sclLine s := by simp [sclLine, masterSclLow]
@[simp] theorem settle_sclq : (settle s).sclq = sclLine s := by simp [settle]
@[simp] theorem settle_dr :
    (settle s).dr = if risingEdge s then shiftIn s.dr (sdaLine s) else s.dr := by simp [settle]
@[simp] theorem settle_ol :
    (settle s).ol = if !s.en || !sclLine s then (settle s).dr.getLsbD 7 else s.ol := by simp [settle]

/-! ### The observer: only its own two fields (R58) -/

@[simp] theorem observe_sdaDir (b : State) : (observe b s).sdaDir = s.sdaDir := rfl
@[simp] theorem observe_sclDir (b : State) : (observe b s).sclDir = s.sclDir := rfl
@[simp] theorem observe_sdaPort (b : State) : (observe b s).sdaPort = s.sdaPort := rfl
@[simp] theorem observe_sclPort (b : State) : (observe b s).sclPort = s.sclPort := rfl
@[simp] theorem observe_dr (b : State) : (observe b s).dr = s.dr := rfl
@[simp] theorem observe_ol (b : State) : (observe b s).ol = s.ol := rfl
@[simp] theorem observe_cf (b : State) : (observe b s).cf = s.cf := rfl
@[simp] theorem observe_cnt (b : State) : (observe b s).cnt = s.cnt := rfl
@[simp] theorem observe_en (b : State) : (observe b s).en = s.en := rfl
@[simp] theorem observe_sclq (b : State) : (observe b s).sclq = s.sclq := rfl
@[simp] theorem observe_seq (b : State) : (observe b s).seq = s.seq := rfl
@[simp] theorem observe_xmask (b : State) : (observe b s).xmask = s.xmask := rfl
@[simp] theorem observe_opdF (b : State) : (observe b s).opdF = s.opdF := rfl
@[simp] theorem observe_opdD (b : State) : (observe b s).opdD = s.opdD := rfl
@[simp] theorem observe_tmp (b : State) : (observe b s).tmp = s.tmp := rfl
@[simp] theorem observe_rbuf (b : State) : (observe b s).rbuf = s.rbuf := rfl
@[simp] theorem observe_res (b : State) : (observe b s).res = s.res := rfl
@[simp] theorem observe_peerSdaLow (b : State) : (observe b s).peerSdaLow = s.peerSdaLow := rfl
@[simp] theorem observe_peerSclLow (b : State) : (observe b s).peerSclLow = s.peerSclLow := rfl
@[simp] theorem observe_sched (b : State) : (observe b s).sched = s.sched := rfl
@[simp] theorem sclLine_observe (b : State) : sclLine (observe b s) = sclLine s := rfl
@[simp] theorem sdaLine_observe (b : State) : sdaLine (observe b s) = sdaLine s := rfl

/-! ### The end of a step -/

@[simp] theorem finish_sdaDir (b : State) : (finish b s).sdaDir = s.sdaDir := by simp [finish]
@[simp] theorem finish_sclDir (b : State) : (finish b s).sclDir = s.sclDir := by simp [finish]
@[simp] theorem finish_sdaPort (b : State) : (finish b s).sdaPort = s.sdaPort := by simp [finish]
@[simp] theorem finish_sclPort (b : State) : (finish b s).sclPort = s.sclPort := by simp [finish]
@[simp] theorem finish_cf (b : State) : (finish b s).cf = s.cf := by simp [finish]
@[simp] theorem finish_cnt (b : State) : (finish b s).cnt = s.cnt := by simp [finish]
@[simp] theorem finish_en (b : State) : (finish b s).en = s.en := by simp [finish]
@[simp] theorem finish_seq (b : State) : (finish b s).seq = s.seq := by simp [finish]
@[simp] theorem finish_xmask (b : State) : (finish b s).xmask = s.xmask := by simp [finish]
@[simp] theorem finish_opdF (b : State) : (finish b s).opdF = s.opdF := by simp [finish]
@[simp] theorem finish_opdD (b : State) : (finish b s).opdD = s.opdD := by simp [finish]
@[simp] theorem finish_tmp (b : State) : (finish b s).tmp = s.tmp := by simp [finish]
@[simp] theorem finish_rbuf (b : State) : (finish b s).rbuf = s.rbuf := by simp [finish]
@[simp] theorem finish_res (b : State) : (finish b s).res = s.res := by simp [finish]
@[simp] theorem finish_peerSdaLow (b : State) : (finish b s).peerSdaLow = s.peerSdaLow := by simp [finish]
@[simp] theorem finish_peerSclLow (b : State) : (finish b s).peerSclLow = s.peerSclLow := by simp [finish]
@[simp] theorem finish_sched (b : State) : (finish b s).sched = s.sched := by simp [finish]
@[simp] theorem finish_sclq (b : State) : (finish b s).sclq = sclLine s := by simp [finish]
@[simp] theorem finish_dr (b : State) : (finish b s).dr = (settle s).dr := by simp [finish]
@[simp] theorem finish_ol (b : State) : (finish b s).ol = (settle s).ol := by simp [finish]
@[simp] theorem sclLine_finish (b : State) : sclLine (finish b s) = sclLine s := by simp [finish]

end Sys2Proof.Machine
end

