-- ==== Sys2Proof/Laws/Ops.lean ====
section
/-! SUPPORT. What the shared operations over the registers do: settle(), the observer, the end of a step, the
micro-operations, one micro-step of the block. -/

namespace Sys2Proof.Machine

open Sys2Proof.Safety

variable (s : State)

/-! ### settle() -/

/-- settle() leaves nothing to settle. -/
theorem settled_settle : Settled (settle s) := by
  refine ⟨by simp, fun h => ?_⟩
  simp only [settle_en, sclLine_settle] at h
  simp only [settle_ol]
  rw [if_pos (by rcases h with h | h <;> simp [h])]

/-- A settled state is a fixed point of settle(). -/
theorem settle_of_settled {s : State} (h : Settled s) : settle s = s := by
  obtain ⟨hq, hl⟩ := h
  have hr : risingEdge s = false := by
    simp only [risingEdge, hq]
    cases sclLine s <;> simp
  have hs : settleShift s = s := by simp [settleShift, hr]
  have hc : settleClock s = s := by simp [settleClock, ← hq]
  rw [settle, hs, hc, settleLatch]
  split
  · next hc =>
    rw [← hl (by simpa using hc)]
  · rfl

/-- The latch keeps its value over a rising edge and while the clock line stays high (R97). -/
theorem settle_ol_of_high {s : State} (he : s.en = true) (hh : sclLine s = true) : (settle s).ol = s.ol := by
  simp [he, hh]

/-- With the clock line low the latch shows DR[7], and DR does not shift. -/
theorem settle_of_low {s : State} (hl : sclLine s = false) :
    (settle s).dr = s.dr ∧ (settle s).ol = s.dr.getLsbD 7 := by
  constructor
  · simp [risingEdge, hl]
  · simp [risingEdge, hl]

/-! ### The observer -/

/-- The observer does nothing over a step that moves no line. -/
theorem observe_of_same {b a : State} (hc : sclLine b = sclLine a) (hd : sdaLine b = sdaLine a) : observe b a = a := by
  unfold observe observerStep
  rw [hc, hd]
  cases sclLine a <;> cases sdaLine a <;> simp

/-- A step that writes nothing a line depends on, from a settled state, ends where it wrote. -/
theorem finish_of_same {b a : State} (ha : Settled a) (hc : sclLine b = sclLine a) (hd : sdaLine b = sdaLine a) :
    finish b a = a := by
  rw [finish, settle_of_settled ha, observe_of_same hc hd]

/-- Every step ends settled. -/
theorem settled_finish (b : State) : Settled (finish b s) := by
  have h := settled_settle s
  exact ⟨h.1, h.2⟩

/-! ### Micro-operations -/

@[simp] theorem applyOp_seq (op : MicroOp) : (applyOp op s).seq = s.seq := by cases op <;> simp [applyOp]
@[simp] theorem applyOp_sclq (op : MicroOp) : (applyOp op s).sclq = s.sclq := by cases op <;> simp [applyOp]
@[simp] theorem applyOp_ol (op : MicroOp) : (applyOp op s).ol = s.ol := by cases op <;> simp [applyOp]
@[simp] theorem applyOp_opdF (op : MicroOp) : (applyOp op s).opdF = s.opdF := by cases op <;> simp [applyOp]
@[simp] theorem applyOp_sched (op : MicroOp) : (applyOp op s).sched = s.sched := by cases op <;> simp [applyOp]
@[simp] theorem applyOp_peerSdaLow (op : MicroOp) : (applyOp op s).peerSdaLow = s.peerSdaLow := by
  cases op <;> simp [applyOp]
@[simp] theorem applyOp_peerSclLow (op : MicroOp) : (applyOp op s).peerSclLow = s.peerSclLow := by
  cases op <;> simp [applyOp]
@[simp] theorem applyOp_obsPending (op : MicroOp) : (applyOp op s).obsPending = s.obsPending := by
  cases op <;> simp [applyOp]
@[simp] theorem applyOp_obsTrace (op : MicroOp) : (applyOp op s).obsTrace = s.obsTrace := by
  cases op <;> simp [applyOp]

/-! ### One micro-step -/

@[simp] theorem microStep_seq (st : MicroStep) (x : Option XferStep) :
    (microStep st x s).seq = nextSeq st x s := by simp [microStep]
@[simp] theorem microStep_sched (st : MicroStep) (x : Option XferStep) :
    (microStep st x s).sched = s.sched := by simp [microStep]
@[simp] theorem microStep_peerSdaLow (st : MicroStep) (x : Option XferStep) :
    (microStep st x s).peerSdaLow = s.peerSdaLow := by simp [microStep]
@[simp] theorem microStep_peerSclLow (st : MicroStep) (x : Option XferStep) :
    (microStep st x s).peerSclLow = s.peerSclLow := by simp [microStep]

/-- What a micro-step leaves in the registers settle() does not touch: what its micro-operation wrote. -/
theorem microStep_registers (st : MicroStep) (x : Option XferStep) :
    let t := microStep st x s
    let w := applyOp (opAt st x) s
    t.sdaDir = w.sdaDir ∧ t.sclDir = w.sclDir ∧ t.sdaPort = w.sdaPort ∧ t.sclPort = w.sclPort ∧ t.cf = w.cf ∧
      t.cnt = w.cnt ∧ t.en = w.en ∧ t.xmask = w.xmask ∧ t.opdF = w.opdF ∧ t.opdD = w.opdD ∧ t.tmp = w.tmp ∧
      t.rbuf = w.rbuf ∧ t.res = w.res := by
  simp [microStep]

/-- A call of the Transfer Primitive by the sequencer is the micro-step of the call (R117). -/
theorem microStep_call {st : MicroStep} {m : Byte} (h : commandOp st = .callXfer m) :
    microStep st none s = callXfer m st s := by
  simp [microStep, callXfer, opAt, nextSeq, h, applyOp]

end Sys2Proof.Machine
end

