-- ==== Sys2Proof/Laws/Agents.lean ====
section
/-! SUPPORT. What a turn can be, the rules for runs of turns, and what the outcomes of an instruction and of a step can
be. -/

namespace Sys2Proof.Machine

open Sys2Proof.Safety

variable {s t : State}

/-! ### One turn -/

/-- The moves of a turn, said once: the block's, with or without a place of its own among the moves; the peer's; the
platform's reset; the idle host's read of RES. -/
theorem turn_cases (s : State) :
    turn s = blockStep s ∨
    (∃ rest, s.sched = .block :: rest ∧ turn s = blockStep { s with sched := rest }) ∨
    (∃ a b rest, s.sched = .peer a b :: rest ∧ turn s = peerStep a b { s with sched := rest }) ∨
    (∃ rest, s.sched = .reset :: rest ∧ turn s = resetBlock { s with sched := rest }) ∨
    (∃ rest, s.sched = .hostRead :: rest ∧ busy s = false ∧ turn s = { s with sched := rest }) := by
  unfold turn
  split
  · exact .inl rfl
  · next rest h => exact .inr (.inl ⟨rest, h, rfl⟩)
  · next a b rest h => exact .inr (.inr (.inl ⟨a, b, rest, h, rfl⟩))
  · next rest h => exact .inr (.inr (.inr (.inl ⟨rest, h, rfl⟩)))
  · next rest h =>
    split
    · exact .inl rfl
    · next hb => exact .inr (.inr (.inr (.inr ⟨rest, h, by simpa using hb, rfl⟩)))
  · exact .inl rfl

/-- With no move among the coming ones, the block moves. -/
theorem turn_nil (h : s.sched = []) : turn s = blockStep s := by simp [turn, h]

theorem turn_block {rest : List Turn} (h : s.sched = .block :: rest) :
    turn s = blockStep { s with sched := rest } := by simp [turn, h]

theorem turn_peer {a b : Bool} {rest : List Turn} (h : s.sched = .peer a b :: rest) :
    turn s = peerStep a b { s with sched := rest } := by simp [turn, h]

/-- While BUSY = 1 a host move waits (R43). -/
theorem turn_host_busy {w : CmdWord} {rest : List Turn} (h : s.sched = .host w :: rest) : turn s = blockStep s := by
  simp [turn, h]

theorem turn_hostRead_busy {rest : List Turn} (h : s.sched = .hostRead :: rest) (hb : busy s = true) :
    turn s = blockStep s := by simp [turn, h, hb]

theorem blockStep_idle (h : s.seq = .idle) : blockStep s = s := by simp [blockStep, h]

theorem blockStep_run {st : MicroStep} {x : Option XferStep} (h : s.seq = .run st x) :
    blockStep s = microStep st x s := by simp [blockStep, h]

@[simp] theorem blockStep_sched (s : State) : (blockStep s).sched = s.sched := by
  unfold blockStep; split <;> simp

@[simp] theorem peerStep_sched (a b : Bool) (s : State) : (peerStep a b s).sched = s.sched := by simp [peerStep]

@[simp] theorem resetBlock_sched (s : State) : (resetBlock s).sched = s.sched := by simp [resetBlock]

@[simp] theorem resetBlock_seq (s : State) : (resetBlock s).seq = .idle := by simp [resetBlock, State.reset]

@[simp] theorem peerStep_seq (a b : Bool) (s : State) : (peerStep a b s).seq = s.seq := by simp [peerStep]

/-- A turn takes at most the first of the coming moves. -/
theorem turn_sched (s : State) : (turn s).sched = s.sched ∨ ∃ m, s.sched = m :: (turn s).sched := by
  rcases turn_cases s with h | ⟨r, hs, h⟩ | ⟨a, b, r, hs, h⟩ | ⟨r, hs, h⟩ | ⟨r, hs, -, h⟩ <;> rw [h]
  · exact .inl (by simp)
  all_goals exact .inr ⟨_, by simpa using hs⟩

/-- Where no reset stands among the moves, none stands there after a turn. -/
theorem noReset_turn (h : noReset s.sched = true) : noReset (turn s).sched = true := by
  rcases turn_sched s with e | ⟨m, e⟩
  · rwa [e]
  · rw [e] at h
    simp only [noReset, List.all_cons, Bool.and_eq_true] at h
    exact h.2

/-- A turn of the block, and of the peer, brings the clock line no nearer to being held in the end. -/
theorem finalSclLow_block (now : Bool) (rest : List Turn) :
    finalSclLow now (.block :: rest) = finalSclLow now rest := rfl

theorem finalSclLow_peer (now a b : Bool) (rest : List Turn) :
    finalSclLow now (.peer a b :: rest) = finalSclLow b rest := rfl

/-! ### Runs of turns -/

@[simp] theorem runWhile_zero (g : State → Bool) (s : State) : runWhile g 0 s = s := rfl

theorem runWhile_go {g : State → Bool} (h : g s = true) (n : Nat) :
    runWhile g (n + 1) s = runWhile g n (turn s) := by simp [runWhile, h]

theorem runWhile_stop {g : State → Bool} (h : g s = false) (n : Nat) : runWhile g n s = s := by
  cases n <;> simp [runWhile, h]

/-- Two runs one after the other are one run. -/
theorem runWhile_add (g : State → Bool) (m n : Nat) (s : State) :
    runWhile g (m + n) s = runWhile g n (runWhile g m s) := by
  induction m generalizing s with
  | zero => simp
  | succ m ih =>
    rw [Nat.add_right_comm]
    cases h : g s
    · rw [runWhile_stop h, runWhile_stop h, runWhile_stop h]
    · rw [runWhile_go h, runWhile_go h, ih]

/-- What every turn keeps, a run keeps. -/
theorem runWhile_keeps (P : State → Prop) {g : State → Bool} (step : ∀ s, P s → g s = true → P (turn s)) (n : Nat)
    (h : P s) : P (runWhile g n s) := by
  induction n generalizing s with
  | zero => exact h
  | succ n ih =>
    cases hg : g s
    · rwa [runWhile_stop hg]
    · rw [runWhile_go hg]
      exact ih (step s h hg)

/-- A run with a measure that every turn lowers comes to its end within that many turns, and keeps what every turn
keeps. -/
theorem runWhile_ends (P : State → Prop) (m : State → Nat) {g : State → Bool}
    (step : ∀ s, P s → g s = true → P (turn s) ∧ m (turn s) < m s) (n : Nat) (h : P s) (hn : m s ≤ n) :
    P (runWhile g n s) ∧ g (runWhile g n s) = false := by
  induction n generalizing s with
  | zero =>
    refine ⟨h, ?_⟩
    cases hg : g s
    · exact hg
    · exact absurd (step s h hg).2 (by omega)
  | succ n ih =>
    cases hg : g s
    · rw [runWhile_stop hg]
      exact ⟨h, hg⟩
    · rw [runWhile_go hg]
      have := step s h hg
      exact ih this.1 (by omega)

/-- A state that a turn does not change is where a run stays. -/
theorem runWhile_fixed {g : State → Bool} (h : turn s = s) (n : Nat) : runWhile g n s = s := by
  induction n with
  | zero => rfl
  | succ n ih =>
    cases hg : g s
    · exact runWhile_stop hg _
    · rw [runWhile_go hg, h, ih]

/-- What a run can be, said once: turns, each but the last from a state that goes on; where the last one goes on too, the
budget is used up. -/
theorem runWhile_turns (g : State → Bool) (N : Nat) (s : State) :
    ∃ n, n ≤ N ∧ runWhile g N s = turns n s ∧ (∀ k, k < n → g (turns k s) = true) ∧
      (g (runWhile g N s) = true → n = N) := by
  induction N generalizing s with
  | zero => exact ⟨0, le_refl _, rfl, by omega, fun _ => rfl⟩
  | succ N ih =>
    cases hg : g s
    · rw [runWhile_stop hg]
      exact ⟨0, by omega, rfl, by omega, by simp [hg]⟩
    · obtain ⟨n, hn, ht, hgo, hend⟩ := ih (turn s)
      rw [runWhile_go hg]
      refine ⟨n + 1, by omega, ht, fun k hk => ?_, fun h => by rw [hend h]⟩
      cases k
      · exact hg
      · exact hgo _ (by omega)

/-! ### Outcomes -/

theorem issue_idle (h : s.seq = .idle) (st : MicroStep) (f : Bool) (d : Byte) :
    issue st f d s = .next (runCommand (accept st f d s)) := by simp [issue, h]

/-- A host command that answers a state was given in an idle state, and the state is where its turns end. -/
theorem issue_next {st : MicroStep} {f : Bool} {d : Byte} (h : issue st f d s = .next t) :
    s.seq = .idle ∧ t = runCommand (accept st f d s) := by
  unfold issue at h
  split at h
  · next hs => exact ⟨hs, by injection h with h; exact h.symm⟩
  · cases h

theorem transfer_run {st : MicroStep} (h : s.seq = .run st none) (m : Byte) :
    transfer m s = .next (runXfer (callXfer m st s)) := by simp [transfer, h]

/-- A primitive call that answers a state was made by a micro-step outside the primitive, and the state is where its
turns end. -/
theorem transfer_next {m : Byte} (h : transfer m s = .next t) :
    ∃ st, s.seq = .run st none ∧ t = runXfer (callXfer m st s) := by
  unfold transfer at h
  split at h
  · cases h
  · cases h
  · next st hs => exact ⟨st, hs, by injection h with h; exact h.symm⟩

/-- What an instruction can answer, said once: the end of the turns of a command or of a primitive call. -/
theorem exec_next {i : Instr} (h : exec i s = .next t) :
    (s.seq = .idle ∧ ∃ st f d, t = runCommand (accept st f d s)) ∨
    (∃ st m, s.seq = .run st none ∧ t = runXfer (callXfer m st s)) := by
  cases i
  case xferByte => obtain ⟨st, hs, ht⟩ := transfer_next h; exact .inr ⟨st, _, hs, ht⟩
  case xferBit => obtain ⟨st, hs, ht⟩ := transfer_next h; exact .inr ⟨st, _, hs, ht⟩
  all_goals
    obtain ⟨hs, ht⟩ := issue_next h
    exact .inl ⟨hs, _, _, _, ht⟩

/-- No instruction faults: the type of faults is empty (R150). -/
theorem exec_ne_fault (i : Instr) (s : State) (f : Fault) : exec i s ≠ .fault f := nomatch f

/-! ### Fetching -/

/-- Where a word is fetched the sequencer and the registers are as they stand; only the move that brought the word is
taken from the coming moves. -/
theorem fetch_word {c : Code} (h : fetch s = .word c t) :
    t = { s with sched := t.sched } ∧ (t.sched = s.sched ∨ ∃ m, s.sched = m :: t.sched) := by
  unfold fetch at h
  split at h
  · split at h
    · next hs => injection h with _ h; subst h; exact ⟨rfl, .inr ⟨_, hs⟩⟩
    · cases h
  · cases h
  · split at h
    · cases h
    · split at h
      · next hs => injection h with _ h; subst h; exact ⟨rfl, .inr ⟨_, hs⟩⟩
      · cases h
      · cases h
      all_goals injection h with _ h; subst h; exact ⟨rfl, .inl rfl⟩

/-- What a step can answer, said once: an instruction's outcome on the fetched word, or one turn. -/
theorem step_next (h : step s = .next t) :
    (∃ c u i, fetch s = .word c u ∧ decode c = .ok i ∧ exec i u = .next t) ∨ (fetch s = .move ∧ t = turn s) := by
  unfold step at h
  split at h
  · next c u hf =>
    split at h
    · next i hd => exact .inl ⟨c, u, i, hf, hd, h⟩
    · cases h
  · next hf => exact .inr ⟨hf, by injection h with h; exact h.symm⟩

end Sys2Proof.Machine
end

