-- ==== Sys2Proof/Laws/PerInstr.lean ====
section
/-! SUPPORT. The family `OwnRow`: every well-formed instruction's word lies in its own row of the opcode table (R61,
R64), one lemma per constructor. -/

namespace Sys2Proof.Laws.OwnRow

/-- The row of the opcode table a word must lie in: `match` and `mask` of spec/opcode_table.json. -/
def inRow (c : Code) (pattern mask : CmdWord) : Bool :=
  match c with
  | .command w => w &&& mask == pattern
  | .mask _ => false

/-- A well-formed instruction is encoded in its own row. -/
def Statement : Instr → Prop
  | .init => inRow (encode .init) 0x1000#16 0xFFFF#16 = true
  | .start => inRow (encode .start) 0x2000#16 0xFFFF#16 = true
  | .stop => inRow (encode .stop) 0x3000#16 0xFFFF#16 = true
  | .wrb d => inRow (encode (.wrb d)) 0x4000#16 0xFF00#16 = true
  | .rdb more => inRow (encode (.rdb more)) 0x5000#16 0xFEFF#16 = true
  | .wra d isWrite => (Instr.wra d isWrite).WellFormed → inRow (encode (.wra d isWrite)) 0x6000#16 0xFE80#16 = true
  | .xferByte => encode .xferByte = .mask 0xF0#8
  | .xferBit => encode .xferBit = .mask 0xFE#8

theorem init : Statement .init := by simp only [Statement]; decide
theorem start : Statement .start := by simp only [Statement]; decide
theorem stop : Statement .stop := by simp only [Statement]; decide
theorem wrb (d : Byte) : Statement (.wrb d) := by
  revert d; simp only [Statement]; decide
theorem rdb (more : Bool) : Statement (.rdb more) := by
  cases more <;> simp only [Statement] <;> decide
theorem wra (d : Byte) (isWrite : Bool) : Statement (.wra d isWrite) := by
  revert d; cases isWrite <;> simp only [Statement] <;> decide
theorem xferByte : Statement .xferByte := rfl
theorem xferBit : Statement .xferBit := rfl

end Sys2Proof.Laws.OwnRow
end

