-- ==== Sys2Proof/Certificates/Slice0/Obligations.lean ====
section
/-! DEFINITION. The statements for the provers. Each docstring names the rules of spec/ it formalises.

`exec` and `step` run a command to its end under the moves that stand in `sched`, with the observer's record in the state:
that form is the model's choice (log entries 1, 2, 3 and 9), and every statement about them rests on it. -/

open Sys2Proof Sys2Proof.Machine Sys2Proof.Safety

/-! ### Reset -/

/-- R32: the registers right after reset, those to which the spec gives a value; SCLQ is the clock level of that moment
(R20); BUSY = 0 (R170). -/
def Obligations.ResetRegisters : Prop :=
  let s := State.reset
  s.sdaDir = false ∧ s.sclDir = false ∧ s.sdaPort = true ∧ s.sclPort = true ∧ s.dr = 0xFF#8 ∧ s.ol = true ∧
    s.cf = false ∧ s.cnt = 0#4 ∧ s.en = false ∧ s.sclq = !s.peerSclLow ∧ s.seq = .idle ∧ s.res = 0x00#8 ∧
    busy s = false

/-- R170, R171, reset as one move (log entry 18): a reset in any state, a command running or not, abandons the command, gives every
register the value R32 states for it, releases both lines, and records the clock level. The peer's inputs are not the block's. -/
def Obligations.ResetAbandonsCommand : Prop :=
  ∀ (s : State) (rest : List Turn), s.sched = .reset :: rest →
    step s = .next (turn s) ∧
    (turn s).sdaDir = false ∧ (turn s).sclDir = false ∧ (turn s).sdaPort = true ∧ (turn s).sclPort = true ∧
    (turn s).dr = 0xFF#8 ∧ (turn s).ol = true ∧ (turn s).cf = false ∧ (turn s).cnt = 0#4 ∧ (turn s).en = false ∧
    (turn s).sclq = (!s.peerSclLow) ∧ (turn s).seq = .idle ∧ (turn s).res = 0x00#8 ∧
    masterSclLow (turn s) = false ∧ masterSdaLow (turn s) = false ∧
    (turn s).peerSdaLow = s.peerSdaLow ∧ (turn s).peerSclLow = s.peerSclLow ∧ (turn s).sched = rest

/-! ### Invariants -/

/-- R44: the state after reset is settled. -/
def Obligations.SettledAtReset : Prop := Settled State.reset

/-- R44: every step leaves the lines settled, that is SCLQ holds the clock level and OL shows DR[7] while the latch is
transparent; in particular no agent ever meets an unrecorded clock edge. -/
def Obligations.SettledKept : Prop :=
  ∀ s t : State, Settled s → step s = .next t → Settled t

/-- R34, R35: the line invariant holds after reset. -/
def Obligations.LineInvAtReset : Prop := LineInv State.reset

/-- R34, R35, R21, R22: every step keeps the line invariant, and under it an idle state in which INIT has run is at the
operation boundary: SDA_DIR = 1, SCL_DIR = 1, SDA_PORT = 1, CR.EN = 1, under any peer. -/
def Obligations.LineInvKept : Prop :=
  ∀ s t : State, LineInv s → step s = .next t →
    LineInv t ∧ (t.seq = .idle → t.en = true → Boundary t)

/-! ### Encoding -/

/-- R60, R61, R64: the word of a well-formed instruction decodes to it, every operand at every value. -/
def Obligations.DecodeEncode : Prop :=
  ∀ i : Instr, i.WellFormed → decode (encode i) = .ok i

/-- R61, R64: a word that decodes to an instruction is that instruction's only word, and the instruction is
well-formed. -/
def Obligations.EncodeDecode : Prop :=
  ∀ (c : Code) (i : Instr), decode c = .ok i → i.WellFormed ∧ encode i = c

/-- R61: a word is the command of a row exactly when `(w and mask) = match`; its operands are its fields D and F (R62).
That the rows do not overlap follows, `decodeCmd` being a function. -/
def Obligations.OpcodeMap : Prop :=
  ∀ w : CmdWord,
    (decodeCmd w = .ok .init ↔ w &&& 0xFFFF#16 = 0x1000#16) ∧
    (decodeCmd w = .ok .start ↔ w &&& 0xFFFF#16 = 0x2000#16) ∧
    (decodeCmd w = .ok .stop ↔ w &&& 0xFFFF#16 = 0x3000#16) ∧
    (∀ d : Byte, decodeCmd w = .ok (.wrb d) ↔ w &&& 0xFF00#16 = 0x4000#16 ∧ d = w.extractLsb' 0 8) ∧
    (∀ f : Bool, decodeCmd w = .ok (.rdb f) ↔ w &&& 0xFEFF#16 = 0x5000#16 ∧ f = w.getLsbD 8) ∧
    (∀ (d : Byte) (f : Bool), decodeCmd w = .ok (.wra d f) ↔
      w &&& 0xFE80#16 = 0x6000#16 ∧ d = w.extractLsb' 0 8 ∧ f = w.getLsbD 8)

/-- R65: which words are reserved, and that the machine refuses one when the host presents it. -/
def Obligations.ReservedWords : Prop :=
  (∀ w : CmdWord,
    (∃ e, decodeCmd w = .error e) ↔
      (w.extractLsb' 12 4 = 0#4 ∨ 7#4 ≤ w.extractLsb' 12 4) ∨
      w.extractLsb' 9 3 ≠ 0#3 ∨
      (w.extractLsb' 12 4 ∈ [1#4, 2#4, 3#4, 5#4] ∧ w.extractLsb' 0 8 ≠ 0x00#8) ∨
      (w.extractLsb' 12 4 ∈ [1#4, 2#4, 3#4, 4#4] ∧ w.getLsbD 8 = true) ∨
      (w.extractLsb' 12 4 = 6#4 ∧ w.getLsbD 7 = true)) ∧
  (∀ (s : State) (w : CmdWord) (rest : List Turn) (e : DecodeError),
    s.seq = .idle → s.sched = .host w :: rest → decodeCmd w = .error e → step s = .refused (.reservedWord e))

/-- R67, V9: words written out from the spec's tables decode to what they stand for. -/
def Obligations.SampleWords : Prop :=
  decodeCmd 0b0001000000000000#16 = .ok .init ∧ decodeCmd 0b0010000000000000#16 = .ok .start ∧
    decodeCmd 0b0011000000000000#16 = .ok .stop ∧ decodeCmd 0b0100000010100101#16 = .ok (.wrb 0xA5#8) ∧
    decodeCmd 0b0101000100000000#16 = .ok (.rdb true) ∧ decodeCmd 0b0101000000000000#16 = .ok (.rdb false) ∧
    decodeCmd 0b0110000101010000#16 = .ok (.wra 0x50#8 true) ∧
    decodeCmd 0b0110000001111111#16 = .ok (.wra 0x7F#8 false) ∧
    decodeMask 0b11110000#8 = .ok .xferByte ∧ decodeMask 0b11111110#8 = .ok .xferBit

/-- R67: the word of every assembler line, and that an operand out of range assembles to nothing. -/
def Obligations.AssemblerWords : Prop :=
  (∃ i, assemble .init = some i ∧ i.WellFormed ∧ encode i = .command 0x1000#16) ∧
  (∃ i, assemble .start = some i ∧ i.WellFormed ∧ encode i = .command 0x2000#16) ∧
  (∃ i, assemble .stop = some i ∧ i.WellFormed ∧ encode i = .command 0x3000#16) ∧
  (∀ b : Nat, b ≤ 255 →
    ∃ i, assemble (.wrb b) = some i ∧ i.WellFormed ∧ encode i = .command (BitVec.ofNat 16 (0x4000 + b))) ∧
  (∀ b : Nat, 255 < b → assemble (.wrb b) = none) ∧
  (∃ i, assemble (.rdb true) = some i ∧ i.WellFormed ∧ encode i = .command 0x5100#16) ∧
  (∃ i, assemble (.rdb false) = some i ∧ i.WellFormed ∧ encode i = .command 0x5000#16) ∧
  (∀ (a : Nat) (w : Bool), a ≤ 127 →
    ∃ i, assemble (.wra a w) = some i ∧ i.WellFormed ∧
      encode i = .command (BitVec.ofNat 16 ((if w then 0x6100 else 0x6000) + a))) ∧
  (∀ (a : Nat) (w : Bool), 127 < a → assemble (.wra a w) = none)

/-! ### Fetching, issue, refusal -/

/-- R69, R117: a word the host presents in an idle state runs as the instruction it decodes to, in the state without
that move; a call step of the running micro-program runs the mode its mask decodes to, on a move of the block, with one
of its own among the coming moves or without; anything else is one turn (log entries 6 and 7). The last three clauses say that
`State.withFetchWord` places a word there. -/
def Obligations.StepRunsDecoded : Prop :=
  (∀ (s : State) (w : CmdWord) (rest : List Turn) (i : Instr),
    s.seq = .idle → s.sched = .host w :: rest → decodeCmd w = .ok i → step s = exec i { s with sched := rest }) ∧
  (∀ (s : State) (st : MicroStep) (m : Byte) (i : Instr),
    s.seq = .run st none → callMask st = some m → decodeMask m = .ok i →
      (∀ rest, s.sched = .block :: rest → step s = exec i { s with sched := rest }) ∧
      (s.sched = [] → step s = exec i s) ∧
      (∀ w rest, s.sched = .host w :: rest → step s = exec i s) ∧
      (∀ rest, s.sched = .hostRead :: rest → step s = exec i s)) ∧
  (∀ s : State, fetch s = .move → step s = .next (turn s)) ∧
  (∀ (s : State) (w : Nat) (i : Instr), decodeTableWord 16 w = some i →
    step (s.withFetchWord 16 w) = exec i { s with seq := .idle }) ∧
  (∀ s : State, step (s.withFetchWord 8 0xF0) = exec .xferByte { s with seq := .run .wb1 none }) ∧
  (∀ s : State, step (s.withFetchWord 8 0xFE) = exec .xferBit { s with seq := .run .wb3 none })

/-- R41, R50, R62, R69: a step is turns, each one micro-step of the block or one move of another agent; so a command and
a primitive call are what their micro-steps make them, with the other agents' moves in between. A word that the host
presents first in an idle state is accepted: OPD is loaded from the word's fields, SEQ stands at the command's first step,
and turns follow for as long as BUSY = 1. In every other state the step is at least one turn of that state, and more only
where it calls the Transfer Primitive: as long as the sequencer is inside it. Turns end earlier only when the number that
log entry 3 gives them is used up. -/
def Obligations.StepIsTurns : Prop :=
  ∀ s t : State, step s = .next t →
    (∀ (w : CmdWord) (rest : List Turn), s.seq = .idle → s.sched = .host w :: rest →
      ∃ (i : Instr) (st : MicroStep) (n : Nat), decodeCmd w = .ok i ∧ firstStep i = some st ∧
        let a : State := { s with
          sched := rest, opdF := w.getLsbD 8, opdD := w.extractLsb' 0 8, seq := .run st none }
        t = turns n a ∧ (∀ k, k < n → busy (turns k a) = true) ∧ (busy t = true → n = turnBudget a)) ∧
    (¬ (s.seq = .idle ∧ ∃ w rest, s.sched = .host w :: rest) →
      ∃ n : Nat, 0 < n ∧ t = turns n s ∧ (∀ k, 0 < k → k < n → inXfer (turns k s) = true) ∧
        (fetch s = .move → n = 1) ∧ (fetch s ≠ .move → inXfer t = true → n = 1 + turnBudget (turn s)))

/-- R43, R69: while BUSY = 1 the host has no move. A move of the host that stands first among the moves
waits and the block moves, and no host command is executed in a busy state: the model's choice, log entry 8. -/
def Obligations.HostWaitsWhileBusy : Prop :=
  ∀ s : State, busy s = true →
    (∀ w rest, s.sched = .host w :: rest → turn s = blockStep s ∧ (turn s).sched = s.sched) ∧
    (∀ rest, s.sched = .hostRead :: rest → turn s = blockStep s ∧ (turn s).sched = s.sched) ∧
    (∀ i : Instr, i.isCommand = true → exec i s = .refused .busy)

/-- R110, R117: the Transfer Primitive is executed only on a call by a micro-step: not in an idle state, and not inside
itself ("Calls do not nest"). That it is refused there is the model's choice, log entry 7. -/
def Obligations.PrimitiveNeedsCaller : Prop :=
  ∀ s : State,
    (s.seq = .idle → exec .xferByte s = .refused .noCaller ∧ exec .xferBit s = .refused .noCaller) ∧
    (∀ st x, s.seq = .run st (some x) →
      exec .xferByte s = .refused .nestedCall ∧ exec .xferBit s = .refused .nestedCall)

/-! ### Lines, settle(), the agents -/

/-- R15: a line is 1 exactly when neither the master nor the peer pulls it low; the master pulls SCL through SCL_PORT,
and SDA through SDA_PORT or, with the unit enabled, through OL. -/
def Obligations.LineLevels : Prop :=
  ∀ s : State,
    (sclLine s = true ↔ ¬ (s.sclDir = true ∧ s.sclPort = false) ∧ s.peerSclLow = false) ∧
    (sdaLine s = true ↔
      ¬ (s.sdaDir = true ∧ (s.sdaPort = false ∨ (s.en = true ∧ s.ol = false))) ∧ s.peerSdaLow = false)

/-- R44, R96, R97: settle() samples the data line with OL as it stands, shifts, records the clock level, and then updates
the latch from the new DR; over a rising edge OL keeps the bit that was on the line. Nothing else changes. -/
def Obligations.SettleReaction : Prop :=
  ∀ s : State,
    (s.en = true ∧ s.sclq = false ∧ sclLine s = true →
      (settle s).dr = s.dr.extractLsb' 0 7 ++ BitVec.ofBool (sdaLine s) ∧ (settle s).ol = s.ol) ∧
    (¬ (s.en = true ∧ s.sclq = false ∧ sclLine s = true) → (settle s).dr = s.dr) ∧
    (settle s).sclq = sclLine s ∧
    (s.en = false ∨ sclLine s = false → (settle s).ol = (settle s).dr.getLsbD 7) ∧
    (s.en = true ∧ sclLine s = true → (settle s).ol = s.ol) ∧
    settle s = { s with dr := (settle s).dr, ol := (settle s).ol, sclq := (settle s).sclq }

/-- R42: a peer step sets the two inputs and reaches the block only through the shift unit's reaction to the lines:
every register but DR, OL and SCLQ is unchanged, and DR changes only by one shift at a rising edge of the clock line. -/
def Obligations.PeerReach : Prop :=
  ∀ (s : State) (a b : Bool),
    (peerStep a b s).peerSdaLow = a ∧ (peerStep a b s).peerSclLow = b ∧
    (peerStep a b s).sdaDir = s.sdaDir ∧ (peerStep a b s).sclDir = s.sclDir ∧
    (peerStep a b s).sdaPort = s.sdaPort ∧ (peerStep a b s).sclPort = s.sclPort ∧
    (peerStep a b s).cf = s.cf ∧ (peerStep a b s).cnt = s.cnt ∧ (peerStep a b s).en = s.en ∧
    (peerStep a b s).seq = s.seq ∧ (peerStep a b s).xmask = s.xmask ∧ (peerStep a b s).opdF = s.opdF ∧
    (peerStep a b s).opdD = s.opdD ∧ (peerStep a b s).tmp = s.tmp ∧ (peerStep a b s).rbuf = s.rbuf ∧
    (peerStep a b s).res = s.res ∧ (peerStep a b s).sched = s.sched ∧
    ((peerStep a b s).dr = s.dr ∨
      (s.en = true ∧ s.sclq = false ∧ sclLine (peerStep a b s) = true ∧
        ∃ level, (peerStep a b s).dr = s.dr.extractLsb' 0 7 ++ BitVec.ofBool level))

/-- R10, column "written by": at which micro-steps a block step can change each register. DR also shifts at a rising
edge of the clock line while the unit is enabled. -/
def Obligations.RegisterWriters : Prop :=
  ∀ (s : State) (st : MicroStep) (x : Option XferStep), s.seq = .run st x →
    ((blockStep s).sdaDir ≠ s.sdaDir → x = none ∧ st ∈ [.in0, .wb2, .wb4, .rd0, .rd3]) ∧
    ((blockStep s).sclDir ≠ s.sclDir → x = none ∧ st = .in1) ∧
    ((blockStep s).sdaPort ≠ s.sdaPort → x = none ∧ st ∈ [.in2, .st0, .st4, .st7, .sp0, .sp4]) ∧
    ((blockStep s).sclPort ≠ s.sclPort →
      (x = none ∧ st ∈ [.in3, .st1, .st6, .sp1]) ∨ x ∈ [some .xf0, some .xf3, some .xf6]) ∧
    ((blockStep s).dr ≠ s.dr →
      (x = none ∧ st ∈ [.in4, .wb0, .rd4]) ∨ x = some .xf9 ∨
        ((blockStep s).en = true ∧ s.sclq = false ∧ sclLine (blockStep s) = true)) ∧
    ((blockStep s).cf ≠ s.cf ∨ (blockStep s).cnt ≠ s.cnt →
      (x = none ∧ st = .in6) ∨ x ∈ [some .xf1, some .xf3, some .xf6]) ∧
    ((blockStep s).en ≠ s.en → x = none ∧ st = .in5) ∧
    ((blockStep s).xmask ≠ s.xmask → x = none ∧ st ∈ [.wb1, .wb3, .rd1, .rd5]) ∧
    (blockStep s).opdF = s.opdF ∧
    ((blockStep s).opdD ≠ s.opdD → x = none ∧ st = .wa0) ∧
    ((blockStep s).tmp ≠ s.tmp → x = some .xf8) ∧
    ((blockStep s).rbuf ≠ s.rbuf → x = none ∧ st = .rd2) ∧
    ((blockStep s).res ≠ s.res → x = none ∧ st ∈ [.wb5, .rd6]) ∧
    (blockStep s).peerSdaLow = s.peerSdaLow ∧ (blockStep s).peerSclLow = s.peerSclLow

/-! ### The shift unit -/

/-- R86: a strobe toggles SCL_PORT and, with the unit enabled, clocks the counter; the wrap from 15 sets CF in the same
step. It does not look at the line. -/
def Obligations.StrobeStep : Prop :=
  ∀ (s : State) (st : MicroStep) (x : XferStep), s.seq = .run st (some x) → x ∈ [.xf3, .xf6] →
    (blockStep s).sclPort = (!s.sclPort) ∧
    (s.en = true → s.cnt = 15#4 → (blockStep s).cnt = 0#4 ∧ (blockStep s).cf = true) ∧
    (s.en = true → s.cnt ≠ 15#4 → (blockStep s).cnt = s.cnt + 1#4 ∧ (blockStep s).cf = s.cf) ∧
    (s.en = false → (blockStep s).cnt = s.cnt ∧ (blockStep s).cf = s.cf)

/-- R99, R30: over one step of the block CF is set exactly by the strobe that takes CNT from 15 to 0, and cleared exactly
by a write to SR with bit 6 set; a peer step does neither. -/
def Obligations.FlagOnlyByWrap : Prop :=
  ∀ (s : State) (st : MicroStep) (x : Option XferStep), s.seq = .run st x →
    (s.cf = false →
      ((blockStep s).cf = true ↔ x ∈ [some .xf3, some .xf6] ∧ s.en = true ∧ s.cnt = 15#4)) ∧
    (s.cf = true →
      ((blockStep s).cf = false ↔
        (x = none ∧ st = .in6) ∨ (x = some .xf1 ∧ s.xmask.getLsbD 6 = true))) ∧
    (∀ a b, (peerStep a b s).cf = s.cf)

/-- R100, R101: a write to SR clears CF when bit 6 is set and leaves it otherwise, loads CNT from the low four bits, and
writes nothing else; a read gives CF at bit 6, CNT at bits 3:0 and zeros elsewhere. -/
def Obligations.StatusAccess : Prop :=
  ∀ (s : State) (v : Byte),
    writeStatus v s =
      { s with cf := if v.getLsbD 6 = true then false else s.cf, cnt := v.extractLsb' 0 4 } ∧
    (readStatus s).getLsbD 7 = false ∧ (readStatus s).getLsbD 6 = s.cf ∧ (readStatus s).getLsbD 5 = false ∧
    (readStatus s).getLsbD 4 = false ∧ (readStatus s).extractLsb' 0 4 = s.cnt

/-- R104: after a write to SR with bit 6 set, CF is 0, and with the unit enabled it becomes 1 at strobe number
`16 - v[3:0]` and not before; CNT is then 0. -/
def Obligations.EdgeCountLaw : Prop :=
  ∀ (s : State) (v : Byte), v.getLsbD 6 = true →
    (writeStatus v s).cf = false ∧
    (s.en = true →
      (∀ k : Nat, k < 16 - (v.extractLsb' 0 4).toNat → (strobes k (writeStatus v s)).cf = false) ∧
      (strobes (16 - (v.extractLsb' 0 4).toNat) (writeStatus v s)).cf = true ∧
      (strobes (16 - (v.extractLsb' 0 4).toNat) (writeStatus v s)).cnt = 0#4)

/-- R97 (d): inside the Transfer Primitive no step of the block changes the master's pull on SDA while the clock line is
high, in any state; so the shift unit makes no START and no STOP. -/
def Obligations.ShiftUnitQuietWhileHigh : Prop :=
  ∀ (s : State) (st : MicroStep) (x : XferStep), s.seq = .run st (some x) →
    sclLine s = true → sclLine (blockStep s) = true →
      masterSdaLow (blockStep s) = masterSdaLow s ∧ (blockStep s).obsTrace = s.obsTrace

/-! ### Waits and blocking -/

/-- R87: a wait passes exactly when the clock line is high, and writes nothing: an unsatisfied wait leaves the whole
state as it is (log entry 12). -/
def Obligations.WaitForClock : Prop :=
  ∀ (s : State) (st : MicroStep) (x : Option XferStep),
    s.seq = .run st x → opAt st x = .waitSclHigh → Settled s →
      (sclLine s = true → blockStep s = { s with seq := follow st x }) ∧ (sclLine s = false → blockStep s = s)

/-- R153: a blocked block with a peer that makes no further move stays as it is, for ever (log entry 12). -/
def Obligations.BlockedForEver : Prop :=
  ∀ s : State, Settled s → Blocked s → s.sched = [] → ∀ n, core.run n s = .next s

/-- R153, R114, R180: whatever the peer does, a host command that does not end stands at a wait with the clock line low,
if the unit is enabled or the command uses no transfer. INIT never blocks. It says that the number of turns a command is
given is enough (log entry 3). -/
def Obligations.HangOnlyAtWait : Prop :=
  ∀ (s t : State) (i : Instr), i.isCommand = true → noReset s.sched = true →
    (s.en = true ∨ i ∈ [.init, .start, .stop]) → exec i s = .next t →
      (t.seq = .idle ∨ Blocked t) ∧ (i = .init → t.seq = .idle)

/-- R87, R114, E6: under a peer that holds the clock, START blocks at ST2, STOP at SP2, and a byte operation at XF4 of
its first pulse, whatever the operand. -/
def Obligations.HeldClockBlocks : Prop :=
  ∀ s : State, s.seq = .idle → s.sched = [] → s.peerSclLow = true →
    (∃ t, exec .start s = .next t ∧ t.seq = .run .st2 none ∧ Blocked t) ∧
    (∃ t, exec .stop s = .next t ∧ t.seq = .run .sp2 none ∧ Blocked t) ∧
    (∀ d, ∃ t, exec (.wrb d) s = .next t ∧ t.seq = .run .wb1 (some .xf4) ∧ Blocked t) ∧
    (∀ d f, ∃ t, exec (.wra d f) s = .next t ∧ t.seq = .run .wb1 (some .xf4) ∧ Blocked t) ∧
    (∀ f, ∃ t, exec (.rdb f) s = .next t ∧ t.seq = .run .rd1 (some .xf4) ∧ Blocked t)

/-- R174, R112: with the unit not enabled no byte operation ends, whatever the peer does: the sequencer stays inside the
first transfer, and nothing is counted: CNT stays at the 0 that the transfer loads, and CF stays 0. If both directions are input, the master pulls no line. -/
def Obligations.NoTransferBeforeInit : Prop :=
  ∀ (s t : State) (i : Instr), (∃ d, i = .wrb d) ∨ (∃ f, i = .rdb f) ∨ (∃ d f, i = .wra d f) →
    s.en = false → noReset s.sched = true → exec i s = .next t →
      busy t = true ∧ (∃ st x, t.seq = .run st (some x) ∧ st ∈ [.wb1, .rd1]) ∧ t.cf = false ∧ t.cnt = 0#4 ∧
      (s.sdaDir = false → s.sclDir = false → masterSdaLow t = false ∧ masterSclLow t = false)

/-- R174: START before INIT, with both directions input and the clock line high, runs to its end and moves no line, but
writes the latches: SCL_PORT is left 0. -/
def Obligations.StartBeforeInit : Prop :=
  ∀ s : State, s.seq = .idle → s.sched = [] → s.en = false → s.sdaDir = false → s.sclDir = false →
    s.peerSclLow = false →
    exec .start s = .next { s with
      sdaPort := true, sclPort := false, sclq := true, ol := s.dr.getLsbD 7, opdF := false, opdD := 0x00#8 }

/-! ### INIT, START, STOP -/

/-- R120: under any peer INIT ends, with both lines outputs and released, the unit enabled and armed at zero; it leaves
XMASK, TMP, RBUF and RES. -/
def Obligations.InitResult : Prop :=
  ∀ s : State, s.seq = .idle → noReset s.sched = true →
    ∃ t, exec .init s = .next t ∧ t.seq = .idle ∧ t.sdaDir = true ∧ t.sclDir = true ∧ t.sdaPort = true ∧
      t.sclPort = true ∧ t.en = true ∧ t.cf = false ∧ t.cnt = 0#4 ∧ t.opdF = false ∧ t.opdD = 0x00#8 ∧
      t.xmask = s.xmask ∧ t.tmp = s.tmp ∧ t.rbuf = s.rbuf ∧ t.res = s.res

/-- R120: a first INIT with released latches, under a peer that holds its levels, gives exactly the idle bus with
DR = 0xFF, OL = 1, CF = 0, CNT = 0, EN = 1, and no step changes a line: the observer sees nothing. -/
def Obligations.FirstInit : Prop :=
  ∀ s : State, s.seq = .idle → s.sched = [] → s.en = false → s.sdaPort = true → s.sclPort = true →
    exec .init s = .next { s with
      sdaDir := true, sclDir := true, dr := 0xFF#8, ol := true, cf := false, cnt := 0#4, en := true,
      sclq := !s.peerSclLow, opdF := false, opdD := 0x00#8 }

/-- R121: START ends under every peer that releases the clock in the end, with SDA_PORT = 1 and SCL_PORT = 0; of the other
registers it writes none but OPD, and DR, OL and SCLQ through settle(). -/
def Obligations.StartResult : Prop :=
  ∀ s : State, s.seq = .idle → ClockReleased s →
    ∃ t, exec .start s = .next t ∧ t.seq = .idle ∧ t.sdaPort = true ∧ t.sclPort = false ∧
      t.opdF = false ∧ t.opdD = 0x00#8 ∧
      t.sdaDir = s.sdaDir ∧ t.sclDir = s.sclDir ∧ t.en = s.en ∧ t.cf = s.cf ∧ t.cnt = s.cnt ∧
      t.xmask = s.xmask ∧ t.tmp = s.tmp ∧ t.rbuf = s.rbuf ∧ t.res = s.res

/-- R122: STOP ends under every peer that releases the clock in the end, with SDA_PORT = 1 and SCL_PORT = 1; of the other
registers it writes none but OPD, and DR, OL and SCLQ through settle(). -/
def Obligations.StopResult : Prop :=
  ∀ s : State, s.seq = .idle → ClockReleased s →
    ∃ t, exec .stop s = .next t ∧ t.seq = .idle ∧ t.sdaPort = true ∧ t.sclPort = true ∧
      t.opdF = false ∧ t.opdD = 0x00#8 ∧
      t.sdaDir = s.sdaDir ∧ t.sclDir = s.sclDir ∧ t.en = s.en ∧ t.cf = s.cf ∧ t.cnt = s.cnt ∧
      t.xmask = s.xmask ∧ t.tmp = s.tmp ∧ t.rbuf = s.rbuf ∧ t.res = s.res

/-- R123: from an idle bus with a silent peer START puts one START condition and nothing else on the wire, leaves DR, and
ends with the clock low. -/
def Obligations.StartOnIdleBus : Prop :=
  ∀ s : State, Boundary s → Settled s → s.sched = [] → Silent s → s.sclPort = true → s.ol = true →
    exec .start s = .next { s with
      sclPort := false, sclq := false, ol := s.dr.getLsbD 7, opdF := false, opdD := 0x00#8,
      obsPending := none, obsTrace := s.obsTrace ++ [.start] }

/-- R123: a repeated START, entered with the clock low and SDA released, lets the clock rise, which shifts a 1 into DR, and
then puts one START condition on the wire and no STOP. -/
def Obligations.RepeatedStart : Prop :=
  ∀ s : State, Boundary s → Settled s → s.sched = [] → Silent s → s.sclPort = false → s.dr.getLsbD 7 = true →
    exec .start s = .next { s with
      dr := s.dr.extractLsb' 0 7 ++ 1#1, ol := s.dr.getLsbD 6, opdF := false, opdD := 0x00#8,
      obsPending := none, obsTrace := s.obsTrace ++ [.start] }

/-- R124: STOP, entered with the clock low and SDA released, lets the clock rise with SDA low, which shifts a 0 into DR,
and puts one STOP condition and nothing else on the wire; the bus ends idle. -/
def Obligations.StopAfterTransfer : Prop :=
  ∀ s : State, Boundary s → Settled s → s.sched = [] → Silent s → s.sclPort = false → s.dr.getLsbD 7 = true →
    exec .stop s = .next { s with
      sclPort := true, sclq := true, dr := s.dr.extractLsb' 0 7 ++ 0#1, ol := true, opdF := false, opdD := 0x00#8,
      obsPending := none, obsTrace := s.obsTrace ++ [.stop] }

/-- R182: STOP on an idle bus puts a START and then a STOP on the wire; no clock edge occurs, so DR does not shift. -/
def Obligations.StopOnIdleBus : Prop :=
  ∀ s : State, Boundary s → Settled s → s.sched = [] → Silent s → s.sclPort = true → s.ol = true →
    exec .stop s = .next { s with
      opdF := false, opdD := 0x00#8, obsPending := none, obsTrace := s.obsTrace ++ [.start, .stop] }

/-- R125, R181: `n` pairs of START and STOP with no byte operation between them, from an idle bus with DR = 0xFF and a
silent peer. Up to eight pairs each puts exactly one START and one STOP on the wire and leaves both lines high, while
zeros walk into DR; of nine the ninth STOP does not reach the wire, and SDA is left low. -/
def Obligations.StartStopPairsWalkZeros : Prop :=
  ∀ s : State, Boundary s → Settled s → IdleBus s → s.sched = [] → Silent s → s.dr = 0xFF#8 →
    (∀ n : Nat, n ≤ 8 → ∃ t, startStopPairs n s = .next t ∧ t.dr = 0xFF#8 <<< n ∧ t.ol = true ∧
      sclLine t = true ∧ sdaLine t = true ∧
      t.obsTrace = s.obsTrace ++ (List.replicate n [BusEvent.start, BusEvent.stop]).flatten) ∧
    (∃ t, startStopPairs 9 s = .next t ∧ t.dr = 0x00#8 ∧ t.ol = false ∧ sclLine t = true ∧ sdaLine t = false ∧
      t.obsTrace = s.obsTrace ++ (List.replicate 8 [BusEvent.start, BusEvent.stop]).flatten ++ [BusEvent.start])

/-- R183: against a peer that holds SDA low START ends and no START reaches the wire. Entered with the clock high nothing
is seen but the data bit of a pulse that was already pending; entered with the clock low the clock pulse is seen as one
data bit, 0, and DR shifts a 0 in. -/
def Obligations.StartAgainstHeldData : Prop :=
  ∀ s : State, Boundary s → Settled s → s.sched = [] → s.peerSdaLow = true → s.peerSclLow = false →
    (s.sclPort = true → ∃ t, exec .start s = .next t ∧ t.seq = .idle ∧
      t.obsTrace = s.obsTrace ++ s.obsPending.toList.map BusEvent.bit ∧ t.dr = s.dr) ∧
    (s.sclPort = false → ∃ t, exec .start s = .next t ∧ t.seq = .idle ∧
      t.obsTrace = s.obsTrace ++ [.bit false] ∧ t.dr = s.dr.extractLsb' 0 7 ++ 0#1)

/-- R183: against a peer that holds SDA low STOP ends and no STOP reaches the wire, nor anything else. Entered with the
clock high it changes nothing but OPD; entered with the clock low it lets the clock rise, which shifts a 0 into DR and
leaves a data bit 0 pending. The whole state is given. -/
def Obligations.StopAgainstHeldData : Prop :=
  ∀ s : State, Boundary s → Settled s → s.sched = [] → s.peerSdaLow = true → s.peerSclLow = false →
    (s.sclPort = true → exec .stop s = .next { s with opdF := false, opdD := 0x00#8 }) ∧
    (s.sclPort = false → exec .stop s = .next { s with
      sclPort := true, sclq := true, dr := s.dr.extractLsb' 0 7 ++ 0#1, opdF := false, opdD := 0x00#8,
      obsPending := some false })

/-! ### The Transfer Primitive -/

/-- R113, R112, R114: called from any micro-step (the micro-program calls at WB1, WB3, RD1 and RD5 only, R115; that a
call by another micro-step runs is the model's choice, log entry 7) with the unit enabled and the clock line an output, under every peer that
releases the clock in the end, each mode of the primitive returns to the caller's next step with SCL_PORT = 0, CF = 1,
CNT = 0, DR = 0xFF, OL = 1; of the other registers it writes none but XMASK, TMP and SCLQ. -/
def Obligations.TransferReturns : Prop :=
  ∀ (s : State) (st : MicroStep) (i : Instr) (m : Byte),
    (i = .xferByte ∧ m = 0xF0#8) ∨ (i = .xferBit ∧ m = 0xFE#8) →
    s.seq = .run st none → s.en = true → s.sclDir = true → ClockReleased s →
    ∃ t, exec i s = .next t ∧ t.seq = afterStep st ∧ AfterByte t ∧ t.xmask = m ∧ sclLine t = false ∧
      t.sdaDir = s.sdaDir ∧ t.sclDir = s.sclDir ∧ t.sdaPort = s.sdaPort ∧ t.en = s.en ∧
      t.opdF = s.opdF ∧ t.opdD = s.opdD ∧ t.rbuf = s.rbuf ∧ t.res = s.res

/-- R118: called from any micro-step (the micro-program calls at WB1, WB3, RD1 and RD5 only, R115; that a call by another
micro-step runs is the model's choice, log entry 7) with the unit enabled and the clock line an output, each mode returns
and leaves in TMP what follows, when the peer holds its levels and leaves the clock alone. Byte mode: the eight sampled levels,
nothing of DR remains; while the master sends they are the byte sent, wired-AND with the peer; while it listens they are
what the peer puts there. Bit mode: {DR[6:0], sampled level}. -/
def Obligations.TransferSamples : Prop :=
  ∀ (s : State) (st : MicroStep),
    s.seq = .run st none → s.en = true → s.sclDir = true → Settled s → s.sched = [] → s.peerSclLow = false →
    (s.sdaDir = true → s.sdaPort = true →
      (∃ t, exec .xferByte s = .next t ∧ t.tmp = if s.peerSdaLow then 0x00#8 else s.dr) ∧
      (∃ t, exec .xferBit s = .next t ∧
        t.tmp = s.dr.extractLsb' 0 7 ++ BitVec.ofBool (s.dr.getLsbD 7 && !s.peerSdaLow))) ∧
    (s.sdaDir = false →
      (∃ t, exec .xferByte s = .next t ∧ t.tmp = if s.peerSdaLow then 0x00#8 else 0xFF#8) ∧
      (∃ t, exec .xferBit s = .next t ∧ t.tmp = s.dr.extractLsb' 0 7 ++ BitVec.ofBool (!s.peerSdaLow)))

/-! ### WRB, RDB, WRA -/

/-- R135, R35: with the unit enabled and the clock line an output, WRB ends under every peer that releases the clock in the
end, at the boundary of R35; RES is bit 0 of what the second transfer returned, 0x00 or 0x01; OPD holds the operand
unmodified; SCL_DIR, SDA_PORT, EN and RBUF are left. -/
def Obligations.WrbResult : Prop :=
  ∀ (s : State) (d : Byte), s.seq = .idle → s.en = true → s.sclDir = true → ClockReleased s →
    ∃ t, exec (.wrb d) s = .next t ∧ t.seq = .idle ∧ AfterByte t ∧ t.sdaDir = true ∧ t.xmask = 0xFE#8 ∧
      t.res = (if t.tmp.getLsbD 0 then 0x01#8 else 0x00#8) ∧ t.opdF = false ∧ t.opdD = d ∧
      t.sclDir = s.sclDir ∧ t.sdaPort = s.sdaPort ∧ t.en = s.en ∧ t.rbuf = s.rbuf

/-- R136, R35: with the unit enabled and the clock line an output, RDB ends under every peer that releases the clock in the
end, at the boundary of R35; RES is the received byte, that is what TMP held when the first transfer had returned and the
sequencer stood at RD2, kept in RBUF; SCL_DIR, SDA_PORT and EN are left. -/
def Obligations.RdbResult : Prop :=
  ∀ (s : State) (more : Bool), s.seq = .idle → s.en = true → s.sclDir = true → ClockReleased s →
    ∃ t, exec (.rdb more) s = .next t ∧ t.seq = .idle ∧ AfterByte t ∧ t.sdaDir = true ∧ t.xmask = 0xFE#8 ∧
      (let a : State := { s with opdF := more, opdD := 0x00#8, seq := .run .rd0 none }
       ∃ k n : Nat, k < n ∧ t = turns n a ∧ (turns k a).seq = .run .rd2 none ∧ t.rbuf = (turns k a).tmp) ∧
      t.res = t.rbuf ∧ t.opdF = more ∧ t.opdD = 0x00#8 ∧
      t.sclDir = s.sclDir ∧ t.sdaPort = s.sdaPort ∧ t.en = s.en

/-- R137, R35: WRA ends as WRB does, with OPD.D the composed byte: bits 6:0 of the operand, then the inverse of the write
flag. -/
def Obligations.WraResult : Prop :=
  ∀ (s : State) (d : Byte) (isWrite : Bool), s.seq = .idle → s.en = true → s.sclDir = true → ClockReleased s →
    ∃ t, exec (.wra d isWrite) s = .next t ∧ t.seq = .idle ∧ AfterByte t ∧ t.sdaDir = true ∧ t.xmask = 0xFE#8 ∧
      t.res = (if t.tmp.getLsbD 0 then 0x01#8 else 0x00#8) ∧ t.opdF = isWrite ∧
      t.opdD = d.extractLsb' 0 7 ++ BitVec.ofBool (!isWrite) ∧
      t.sclDir = s.sclDir ∧ t.sdaPort = s.sdaPort ∧ t.en = s.en ∧ t.rbuf = s.rbuf

/-- R140, R118: for every byte, WRB with a silent peer puts its bits on the wire most significant first, then the level 1
of an absent acknowledge, and no START or STOP; RES = 0x01: an absent device is a NACK. The whole state is given. -/
def Obligations.WrbOnSilentBus : Prop :=
  ∀ (s : State) (d : Byte), Boundary s → Settled s → s.sched = [] → Silent s → s.sclPort = false →
    exec (.wrb d) s = .next { s with
      dr := 0xFF#8, ol := true, cf := true, cnt := 0#4, xmask := 0xFE#8, opdF := false, opdD := d,
      tmp := 0xFF#8, res := 0x01#8, obsPending := none, obsTrace := s.obsTrace ++ wireByte d true }

/-- R175: a WRB without a START, given on a bus whose clock is high, still clocks its nine pulses, with no START and no STOP:
the wire carries the data bit of a pulse that was already pending, then the byte and the level 1 of an absent acknowledge.
The bus is left with the clock low. The whole state is given. -/
def Obligations.WrbWithoutStart : Prop :=
  ∀ (s : State) (d : Byte), Boundary s → Settled s → s.sched = [] → Silent s → s.sclPort = true →
    exec (.wrb d) s = .next { s with
      sclPort := false, sclq := false, dr := 0xFF#8, ol := true, cf := true, cnt := 0#4, xmask := 0xFE#8,
      opdF := false, opdD := d, tmp := 0xFF#8, res := 0x01#8, obsPending := none,
      obsTrace := s.obsTrace ++ s.obsPending.toList.map BusEvent.bit ++ wireByte d true }

/-- R140, R135, E5: for every byte, WRB with the acknowledging peer P5 puts its bits on the wire most significant first,
then the level 0; RES = 0x00: ACK. The whole state is given. -/
def Obligations.WrbAcknowledged : Prop :=
  ∀ (s : State) (d : Byte), Boundary s → Settled s → s.sched = ackMoves → Silent s → s.sclPort = false →
    exec (.wrb d) s = .next { s with
      dr := 0xFF#8, ol := true, cf := true, cnt := 0#4, xmask := 0xFE#8, opdF := false, opdD := d,
      tmp := 0xFE#8, res := 0x00#8, sched := [], obsPending := none,
      obsTrace := s.obsTrace ++ wireByte d false }

/-- R136, R141, R47: for every byte and either flag, RDB with a peer that sends the byte returns it, and the ninth pulse
carries the level 0: with the document's values (log entry 11) both choices acknowledge. The whole state is given. -/
def Obligations.RdbReceives : Prop :=
  ∀ (s : State) (v : Byte) (more : Bool),
    Boundary s → Settled s → s.sched = sendMoves v → Silent s → s.sclPort = false →
    exec (.rdb more) s = .next { s with
      dr := 0xFF#8, ol := true, cf := true, cnt := 0#4, xmask := 0xFE#8, opdF := more, opdD := 0x00#8,
      tmp := (if more then 0x02#8 else 0x00#8), rbuf := v, res := v, sched := [], obsPending := none,
      obsTrace := s.obsTrace ++ wireByte v false }

/-- R68, R137: from any settled state and under any moves, `WRA` with one block step more in front ends exactly as `WRB`
of the composed byte, but for OPD.F. -/
def Obligations.WraIsWrbOfComposedByte : Prop :=
  ∀ (s : State) (d : Byte) (isWrite : Bool), Settled s →
    mapNext (fun t => { t with opdF := false }) (exec (.wra d isWrite) { s with sched := .block :: s.sched }) =
      mapNext (fun t => { t with opdF := false })
        (exec (.wrb (d.extractLsb' 0 7 ++ BitVec.ofBool (!isWrite))) s)

/-- R107 (c), R137, E4: the composed byte of a 7-bit address is `(2 * a) + (1 - w)`. -/
def Obligations.AddressByte : Prop :=
  ∀ (d : Byte) (isWrite : Bool), d.getLsbD 7 = false →
    (composeAddress d isWrite).toNat = 2 * d.toNat + (if isWrite then 0 else 1)

/-! ### Frames: what an instruction leaves, under every peer, whether it ends or blocks -/

/-- R120: INIT leaves XMASK, TMP, RBUF and RES. -/
def Obligations.InitFrame : Prop :=
  ∀ s t : State, noReset s.sched = true → exec .init s = .next t →
    t.xmask = s.xmask ∧ t.tmp = s.tmp ∧ t.rbuf = s.rbuf ∧ t.res = s.res ∧ t.opdF = false ∧ t.opdD = 0x00#8

/-- R121, R122, R26: START and STOP leave the directions, EN, CF, CNT, XMASK, TMP, RBUF and RES. -/
def Obligations.StartStopFrame : Prop :=
  ∀ (s t : State) (i : Instr), i ∈ [.start, .stop] → noReset s.sched = true → exec i s = .next t →
    t.sdaDir = s.sdaDir ∧ t.sclDir = s.sclDir ∧ t.en = s.en ∧ t.cf = s.cf ∧ t.cnt = s.cnt ∧ t.xmask = s.xmask ∧
      t.tmp = s.tmp ∧ t.rbuf = s.rbuf ∧ t.res = s.res ∧ t.opdF = false ∧ t.opdD = 0x00#8

/-- R135, R137: WRB and WRA leave SCL_DIR, SDA_PORT, EN and RBUF; WRB does not write its operand. -/
def Obligations.WriteByteFrame : Prop :=
  ∀ (s t : State) (d : Byte), noReset s.sched = true →
    (exec (.wrb d) s = .next t →
      t.sclDir = s.sclDir ∧ t.sdaPort = s.sdaPort ∧ t.en = s.en ∧ t.rbuf = s.rbuf ∧ t.opdF = false ∧ t.opdD = d) ∧
    (∀ isWrite, exec (.wra d isWrite) s = .next t →
      t.sclDir = s.sclDir ∧ t.sdaPort = s.sdaPort ∧ t.en = s.en ∧ t.rbuf = s.rbuf ∧ t.opdF = isWrite ∧
        t.opdD = d.extractLsb' 0 7 ++ BitVec.ofBool (!isWrite))

/-- R136: RDB leaves SCL_DIR, SDA_PORT and EN, and its operand. -/
def Obligations.ReadByteFrame : Prop :=
  ∀ (s t : State) (more : Bool), noReset s.sched = true → exec (.rdb more) s = .next t →
    t.sclDir = s.sclDir ∧ t.sdaPort = s.sdaPort ∧ t.en = s.en ∧ t.opdF = more ∧ t.opdD = 0x00#8

/-- R113: the Transfer Primitive leaves SDA_DIR, SDA_PORT, SCL_DIR, EN, OPD, RBUF and RES. -/
def Obligations.TransferFrame : Prop :=
  ∀ (s t : State) (i : Instr), i ∈ [.xferByte, .xferBit] → noReset s.sched = true → exec i s = .next t →
    t.sdaDir = s.sdaDir ∧ t.sdaPort = s.sdaPort ∧ t.sclDir = s.sclDir ∧ t.en = s.en ∧ t.opdF = s.opdF ∧
      t.opdD = s.opdD ∧ t.rbuf = s.rbuf ∧ t.res = s.res

/-- R12, R19, R31: but for a reset, only INIT changes SCL_DIR or CR.EN, and neither is ever cleared: a step that changes
one is an INIT the host issues or a step of a running INIT. -/
def Obligations.OnlyInitConfigures : Prop :=
  ∀ s t : State, noReset s.sched = true → step s = .next t →
    (s.en = true → t.en = true) ∧ (s.sclDir = true → t.sclDir = true) ∧
    (t.en ≠ s.en ∨ t.sclDir ≠ s.sclDir →
      seqOp s.seq = .init ∨ ∃ rest, s.seq = .idle ∧ s.sched = .host 0x1000#16 :: rest)
end

