-- ==== Sys2Proof/Tests/Slice0.lean ====
section
/-! SUPPORT. Tests: words written out from 30_encoding.md, one step of each instruction against 95_test_vectors.md, the
well-formedness check, and for every statement with hypotheses a state and operands that meet them. -/

namespace Sys2Proof.Tests

open Sys2Proof.Machine Sys2Proof.Safety

/-! ### States and checks -/

/-- "After INIT" of 95_test_vectors.md section 0. -/
def afterInit : State := { State.reset with sdaDir := true, sclDir := true, en := true }

/-- The last row of V2's START. -/
def afterStart : State := { afterInit with sclPort := false, sclq := false, obsTrace := [.start] }

/-- Whether an outcome is a next state with a property. -/
def ends (o : Host.Outcome State Fault Refusal) (p : State → Bool) : Bool :=
  match o with
  | .next t => p t
  | _ => false

/-- Whether an outcome is a given refusal. -/
def refuses (o : Host.Outcome State Fault Refusal) (r : Refusal) : Bool :=
  match o with
  | .refused q => q == r
  | _ => false

/-- Whether a word decodes to an instruction. -/
def reads (c : Code) (i : Instr) : Bool :=
  match decode c with
  | .ok j => i == j
  | .error _ => false

/-- Whether a word is refused on a ground of R65. -/
def reserved (w : CmdWord) (e : DecodeError) : Bool :=
  match decodeCmd w with
  | .ok _ => false
  | .error f => e == f

/-- The step that runs a command word in a state. -/
def given (w : Nat) (s : State) : Host.Outcome State Fault Refusal := step (s.withFetchWord 16 w)

/-! ### Well-formedness -/

/-- R65: WRA with D[7] set has no word. -/
theorem test_illFormed_wra : (Instr.wra 0x80#8 true).wellFormed = false := by decide

/-! ### Decoding: words written out bit by bit from R60, R61, R64 (V9) -/

theorem test_decode_init : reads (.command 0b0001000000000000#16) .init = true := by decide
theorem test_decode_start : reads (.command 0b0010000000000000#16) .start = true := by decide
theorem test_decode_stop : reads (.command 0b0011000000000000#16) .stop = true := by decide
theorem test_decode_wrb : reads (.command 0b0100000010100101#16) (.wrb 0xA5#8) = true := by decide
theorem test_decode_rdb_more : reads (.command 0b0101000100000000#16) (.rdb true) = true := by decide
theorem test_decode_rdb_last : reads (.command 0b0101000000000000#16) (.rdb false) = true := by decide
theorem test_decode_wra_write : reads (.command 0b0110000101010000#16) (.wra 0x50#8 true) = true := by decide
theorem test_decode_wra_read : reads (.command 0b0110000001111111#16) (.wra 0x7F#8 false) = true := by decide
theorem test_decode_xferByte : reads (.mask 0b11110000#8) .xferByte = true := by decide
theorem test_decode_xferBit : reads (.mask 0b11111110#8) .xferBit = true := by decide

/-- The reserved words of V9. -/
theorem test_reserved_words :
    (reserved 0x0000#16 .reservedOpcode && reserved 0xFFFF#16 .reservedOpcode && reserved 0x0100#16 .reservedOpcode &&
      reserved 0x7000#16 .reservedOpcode && reserved 0x1001#16 .byteOperandSet && reserved 0x2100#16 .flagOperandSet &&
      reserved 0x3080#16 .byteOperandSet && reserved 0x4100#16 .flagOperandSet && reserved 0x4200#16 .zFieldSet &&
      reserved 0x5001#16 .byteOperandSet && reserved 0x6080#16 .addressTooWide && reserved 0x61D0#16 .addressTooWide &&
      reserved 0x6E50#16 .zFieldSet) = true := by decide

/-- A reserved word stops the step by name. -/
theorem test_step_reserved : refuses (given 0x4100 afterInit) (.reservedWord .flagOperandSet) = true := by decide

/-! ### One step of each instruction -/

/-- V1: INIT from reset. -/
theorem test_init_from_reset :
    ends (given 0x1000 State.reset) (fun t => t == afterInit) = true := by
  decide +kernel

/-- V10 (e): a second INIT inside a transaction raises the clock and clears CF; no condition reaches the wire. -/
theorem test_init_again :
    ends (given 0x1000 { afterStart with cf := true })
      (fun t => t.sclPort && t.dr == 0xFF#8 && !t.cf && t.obsTrace == [.start]) = true := by
  decide +kernel

/-- V2, rows ST0 to ST7. -/
theorem test_start_on_idle_bus : ends (given 0x2000 afterInit) (fun t => t == afterStart) = true := by
  decide +kernel

/-- V10 (d): a repeated START against a peer that holds SDA low. -/
theorem test_start_held_data :
    ends (given 0x2000 { afterStart with cf := true, peerSdaLow := true })
      (fun t => t.dr == 0xFE#8 && t.obsTrace == [.start, .bit false] && t.cf && !sdaLine t) = true := by
  decide +kernel

/-- V2, rows SP0 to SP5. -/
theorem test_stop_after_start :
    ends (given 0x3000 afterStart)
      (fun t => t.dr == 0xFE#8 && t.ol && sclLine t && sdaLine t && t.obsTrace == [.start, .stop]) = true := by
  decide +kernel

/-- V10 (b): STOP on an idle bus. -/
theorem test_stop_on_idle_bus :
    ends (given 0x3000 afterInit) (fun t => t.dr == 0xFF#8 && t.obsTrace == [.start, .stop]) = true := by
  decide +kernel

/-- V4: `WRB #0xA5` with an acknowledging peer. -/
theorem test_wrb_acknowledged :
    ends (given 0x40A5 { afterStart with sched := ackMoves })
      (fun t => t.res == 0x00#8 && t.tmp == 0xFE#8 &&
        t.obsTrace.map (fun e => e == .bit true) ==
          [false, true, false, true, false, false, true, false, true, false]) = true := by
  decide +kernel

/-- P4: `WRB #0xF0` with a peer that holds the clock from the fourth falling edge on. -/
theorem test_wrb_hangs :
    ends (given 0x40F0 { afterStart with sched := List.replicate 27 Turn.block ++ [.peer false true] })
      (fun t => t.seq == .run .wb1 (some .xf4) && t.dr == 0x0F#8 && !t.ol && t.cnt == 9#4 && !t.cf && t.sclPort &&
        !sclLine t && !sdaLine t) = true := by
  decide +kernel

/-- V5: `RDB MORE` with a peer that sends 0xC3. -/
theorem test_rdb_more :
    ends (given 0x5100 { afterStart with sched := sendMoves 0xC3#8 })
      (fun t => t.res == 0xC3#8 && t.rbuf == 0xC3#8 && t.tmp == 0x02#8 && t.dr == 0xFF#8 && t.sdaDir &&
        t.obsTrace.getLast? == some (.bit false)) = true := by
  decide +kernel

/-- V5: `RDB LAST` on a silent bus. -/
theorem test_rdb_last_silent :
    ends (given 0x5000 afterStart) (fun t => t.res == 0xFF#8 && t.tmp == 0x00#8 && !t.opdF) = true := by
  decide +kernel

/-- V3: `WRA #0x50, W` with an acknowledging peer: one block step more than WRB before the acknowledge. -/
theorem test_wra_write :
    ends (given 0x6150 { afterStart with sched := .block :: ackMoves })
      (fun t => t.res == 0x00#8 && t.opdD == 0xA0#8 && t.opdF && t.tmp == 0xFE#8 &&
        t.obsTrace == [.start, .bit true, .bit false, .bit true, .bit false, .bit false, .bit false, .bit false,
          .bit false, .bit false]) = true := by
  decide +kernel

/-- P3: `WRA #0x51, W` with no device: a NACK. -/
theorem test_wra_no_device :
    ends (given 0x6151 afterStart) (fun t => t.res == 0x01#8 && t.opdD == 0xA2#8 && t.tmp == 0xFF#8) = true := by
  decide +kernel

/-- The worked example of R118, byte mode: DR = 0xA0, a silent peer. -/
theorem test_xferByte :
    ends (step ({ afterStart with dr := 0xA0#8 }.withFetchWord 8 0xF0))
      (fun t => t.tmp == 0xA0#8 && t.dr == 0xFF#8 && t.cf && t.cnt == 0#4 && t.seq == .run .wb2 none) = true := by
  decide +kernel

/-- The worked example of R118, bit mode: DR = 0xFF, the data line input, the peer pulling it low. -/
theorem test_xferBit :
    ends (step ({ afterStart with sdaDir := false, peerSdaLow := true }.withFetchWord 8 0xFE))
      (fun t => t.tmp == 0xFE#8 && t.dr == 0xFF#8 && t.cf && t.cnt == 0#4 && t.seq == .run .wb4 none) = true := by
  decide +kernel

/-- V10 (c): `WRB #0x3C` from reset never ends. -/
theorem test_wrb_before_init :
    ends (given 0x403C State.reset) (fun t => busy t && t.dr == 0x3C#8 && t.cnt == 0#4 && !t.cf) = true := by
  decide +kernel

/-! ### Witnesses: a state and operands that meet the hypotheses of each statement -/

theorem settled_afterInit : Settled afterInit := ⟨by decide, by decide⟩
theorem settled_afterStart : Settled afterStart := ⟨by decide, by decide⟩
theorem boundary_afterInit : Boundary afterInit := ⟨rfl, rfl, rfl, rfl, rfl⟩
theorem boundary_afterStart : Boundary afterStart := ⟨rfl, rfl, rfl, rfl, rfl⟩
theorem silent_afterInit : Silent afterInit := ⟨rfl, rfl⟩
theorem silent_afterStart : Silent afterStart := ⟨rfl, rfl⟩
theorem idleBus_afterInit : IdleBus afterInit := ⟨rfl, rfl, rfl, rfl, .inl rfl⟩

/-- A peer that stretches the clock and lets go. -/
def stretched : State := { afterStart with sched := [.block, .peer true true, .block, .peer false false] }

theorem clockReleased_stretched : ClockReleased stretched := ⟨by decide, by decide⟩

theorem witness_ResetAbandonsCommand :
    ({ afterStart with seq := .run .wb1 (some .xf3), sched := [.reset] } : State).sched = .reset :: [] := rfl

theorem witness_SettledKept : ∃ t, Settled State.reset ∧ step State.reset = .next t :=
  ⟨_, ⟨⟨by decide, by decide⟩, rfl⟩⟩

theorem witness_LineInvKept : ∃ t, LineInv afterInit ∧ step afterInit = .next t ∧ t.seq = .idle ∧ t.en = true :=
  ⟨_, ⟨trivial, by decide, by decide, by decide, by decide, by decide⟩, rfl, rfl, rfl⟩

theorem witness_DecodeEncode : (Instr.wra 0x7F#8 false).WellFormed := by decide

theorem witness_EncodeDecode : decode (.command 0x617F#16) = .ok (.wra 0x7F#8 true) := by rfl

theorem witness_ReservedWords :
    ({ afterInit with sched := [.host 0x6080#16] } : State).seq = .idle ∧
      decodeCmd 0x6080#16 = .error .addressTooWide := ⟨rfl, by rfl⟩

theorem witness_AssemblerWords : 255 ≤ 255 ∧ 255 < 256 ∧ 127 ≤ 127 ∧ 127 < 128 := by decide

/-- R67: the F of an RDB line is 1 for MORE and 0 for LAST. -/
theorem test_assemble_rdb :
    assemble (.rdb true) = some (.rdb true) ∧ encode (.rdb true) = .command 0b0101000100000000#16 ∧
      assemble (.rdb false) = some (.rdb false) ∧ encode (.rdb false) = .command 0b0101000000000000#16 := by decide

theorem witness_StepRunsDecoded_command :
    ({ afterInit with sched := [.host 0x2000#16] } : State).seq = .idle ∧ decodeCmd 0x2000#16 = .ok .start :=
  ⟨rfl, by rfl⟩

theorem witness_StepRunsDecoded_call :
    callMask .rd5 = some 0xFE#8 ∧ decodeMask 0xFE#8 = .ok .xferBit ∧ callMask .wb1 = some 0xF0#8 ∧
      decodeMask 0xF0#8 = .ok .xferByte := ⟨rfl, rfl, rfl, rfl⟩

theorem witness_StepRunsDecoded_move : fetch { afterInit with sched := [.peer true false] } = .move := rfl

theorem witness_StepRunsDecoded_table : decodeTableWord 16 0x6100 = some (.wra 0x00#8 true) := by rfl

theorem witness_StepIsTurns_word :
    let s : State := { afterInit with sched := [.host 0x2000#16] }
    ∃ t, step s = .next t ∧ s.seq = .idle ∧ s.sched = [.host 0x2000#16] := ⟨_, rfl, rfl, rfl⟩

/-- A single turn. -/
theorem witness_StepIsTurns_move :
    let s : State := { afterInit with seq := .run .st2 none }
    ∃ t, step s = .next t ∧ ¬ (s.seq = .idle ∧ ∃ w rest, s.sched = .host w :: rest) ∧ fetch s = .move :=
  ⟨_, rfl, fun h => (nomatch h.1), rfl⟩

/-- A call that blocks inside the primitive. -/
theorem witness_StepIsTurns_call :
    let s : State := { afterStart with seq := .run .wb1 none, peerSclLow := true }
    ∃ t, step s = .next t ∧ ¬ (s.seq = .idle ∧ ∃ w rest, s.sched = .host w :: rest) ∧ fetch s ≠ .move ∧
      inXfer t = true :=
  ⟨_, rfl, fun h => (nomatch h.1), by decide, rfl⟩

theorem witness_HostWaitsWhileBusy :
    busy { afterStart with seq := .run .wb1 (some .xf4), sched := [.host 0x3000#16] } = true ∧
      (Instr.rdb true).isCommand = true := by decide

theorem witness_PrimitiveNeedsCaller :
    afterInit.seq = .idle ∧ ({ afterStart with seq := .run .rd1 (some .xf0) } : State).seq = .run .rd1 (some .xf0) :=
  ⟨rfl, rfl⟩

/-- A rising edge, and its absence. -/
theorem witness_SettleReaction :
    (let s : State := { afterStart with sclPort := true }; s.en = true ∧ s.sclq = false ∧ sclLine s = true) ∧
    ¬ (afterStart.en = true ∧ afterStart.sclq = false ∧ sclLine afterStart = true) := by decide

theorem witness_RegisterWriters :
    ({ afterStart with seq := .run .wb1 (some .xf6) } : State).seq = .run .wb1 (some .xf6) := rfl

/-- The wrap and a count short of it. -/
theorem witness_StrobeStep :
    (let s : State := { afterStart with seq := .run .wb1 (some .xf6), cnt := 15#4 };
      s.seq = .run .wb1 (some .xf6) ∧ s.en = true ∧ s.cnt = 15#4) ∧
    XferStep.xf6 ∈ [XferStep.xf3, XferStep.xf6] ∧ afterStart.cnt ≠ 15#4 ∧ State.reset.en = false := by decide

theorem witness_FlagOnlyByWrap :
    (let s : State := { afterStart with seq := .run .wb1 (some .xf1), cf := true, xmask := 0xF0#8 };
      s.seq = .run .wb1 (some .xf1) ∧ s.cf = true) ∧
    (let s : State := { afterStart with seq := .run .wb1 (some .xf6) };
      s.seq = .run .wb1 (some .xf6) ∧ s.cf = false) := by decide

/-- Sixteen strobes, and the least number, one. -/
theorem witness_EdgeCountLaw :
    afterInit.en = true ∧ (0xF0#8).getLsbD 6 = true ∧ (0x4F#8).getLsbD 6 = true := by decide

theorem witness_ShiftUnitQuietWhileHigh :
    let s : State := { afterInit with seq := .run .wb1 (some .xf5) }
    s.seq = .run .wb1 (some .xf5) ∧ sclLine s = true ∧ sclLine (blockStep s) = true := by decide

/-- A wait that passes, and one that does not. -/
theorem witness_WaitForClock :
    (let s : State := { afterInit with seq := .run .st2 none };
      opAt .st2 none = .waitSclHigh ∧ Settled s ∧ sclLine s = true) ∧
    (let s : State := { afterInit with seq := .run .st2 none, peerSclLow := true, sclq := false };
      Settled s ∧ sclLine s = false) :=
  ⟨⟨rfl, ⟨by decide, by decide⟩, rfl⟩, ⟨by decide, by decide⟩, rfl⟩

theorem witness_BlockedForEver :
    let s : State := { afterInit with seq := .run .st2 none, peerSclLow := true, sclq := false }
    Settled s ∧ Blocked s ∧ s.sched = [] :=
  ⟨⟨by decide, by decide⟩, ⟨rfl, .st2, none, rfl, rfl⟩, rfl⟩

theorem witness_HangOnlyAtWait : ∃ t,
    (Instr.wrb 0x80#8).isCommand = true ∧ noReset stretched.sched = true ∧
    stretched.en = true ∧ exec (.wrb 0x80#8) stretched = .next t := ⟨_, rfl, rfl, rfl, rfl⟩

theorem witness_HeldClockBlocks :
    let s : State := { afterInit with peerSclLow := true, sclq := false }
    s.seq = .idle ∧ s.sched = [] ∧ s.peerSclLow = true := by decide

theorem witness_NoTransferBeforeInit : ∃ t,
    ((∃ d, Instr.wra 0x50#8 true = .wrb d) ∨ (∃ f, Instr.wra 0x50#8 true = .rdb f) ∨
      (∃ d f, Instr.wra 0x50#8 true = .wra d f)) ∧
    State.reset.en = false ∧ noReset State.reset.sched = true ∧
    exec (.wra 0x50#8 true) State.reset = .next t ∧ State.reset.sdaDir = false ∧ State.reset.sclDir = false :=
  ⟨_, .inr (.inr ⟨_, _, rfl⟩), rfl, rfl, rfl, rfl, rfl⟩

theorem witness_StartBeforeInit :
    State.reset.seq = .idle ∧ State.reset.sched = [] ∧ State.reset.en = false ∧ State.reset.sdaDir = false ∧
      State.reset.sclDir = false ∧ State.reset.peerSclLow = false := by decide

theorem witness_InitResult : stretched.seq = .idle ∧ noReset stretched.sched = true := by decide

theorem witness_FirstInit :
    State.reset.seq = .idle ∧ State.reset.sched = [] ∧ State.reset.en = false ∧ State.reset.sdaPort = true ∧
      State.reset.sclPort = true := by decide

theorem witness_StartResult : stretched.seq = .idle ∧ ClockReleased stretched := ⟨rfl, clockReleased_stretched⟩

theorem witness_StopResult : stretched.seq = .idle ∧ ClockReleased stretched := ⟨rfl, clockReleased_stretched⟩

theorem witness_StartOnIdleBus : Boundary afterInit ∧ Settled afterInit ∧ afterInit.sched = [] ∧ Silent afterInit ∧
    afterInit.sclPort = true ∧ afterInit.ol = true :=
  ⟨boundary_afterInit, settled_afterInit, rfl, silent_afterInit, rfl, rfl⟩

theorem witness_RepeatedStart : Boundary afterStart ∧ Settled afterStart ∧ afterStart.sched = [] ∧ Silent afterStart ∧
    afterStart.sclPort = false ∧ afterStart.dr.getLsbD 7 = true :=
  ⟨boundary_afterStart, settled_afterStart, rfl, silent_afterStart, rfl, by decide⟩

theorem witness_StopAfterTransfer : Boundary afterStart ∧ Settled afterStart ∧ afterStart.sched = [] ∧
    Silent afterStart ∧ afterStart.sclPort = false ∧ afterStart.dr.getLsbD 7 = true := witness_RepeatedStart

theorem witness_StopOnIdleBus : Boundary afterInit ∧ Settled afterInit ∧ afterInit.sched = [] ∧ Silent afterInit ∧
    afterInit.sclPort = true ∧ afterInit.ol = true := witness_StartOnIdleBus

theorem witness_StartStopPairsWalkZeros : Boundary afterInit ∧ Settled afterInit ∧ IdleBus afterInit ∧
    afterInit.sched = [] ∧ Silent afterInit ∧ afterInit.dr = 0xFF#8 ∧ 8 ≤ 8 :=
  ⟨boundary_afterInit, settled_afterInit, idleBus_afterInit, rfl, silent_afterInit, rfl, le_refl _⟩

theorem witness_StartAgainstHeldData_high :
    let s : State := { afterInit with peerSdaLow := true }
    Boundary s ∧ Settled s ∧ s.sched = [] ∧ s.peerSdaLow = true ∧ s.peerSclLow = false ∧ s.sclPort = true :=
  ⟨⟨rfl, rfl, rfl, rfl, rfl⟩, ⟨by decide, by decide⟩, rfl, rfl, rfl, rfl⟩

theorem witness_StartAgainstHeldData_low :
    let s : State := { afterStart with peerSdaLow := true }
    Boundary s ∧ Settled s ∧ s.sched = [] ∧ s.peerSdaLow = true ∧ s.peerSclLow = false ∧ s.sclPort = false :=
  ⟨⟨rfl, rfl, rfl, rfl, rfl⟩, ⟨by decide, by decide⟩, rfl, rfl, rfl, rfl⟩

theorem witness_StopAgainstHeldData_high :
    let s : State := { afterInit with peerSdaLow := true }
    Boundary s ∧ Settled s ∧ s.sched = [] ∧ s.peerSdaLow = true ∧ s.peerSclLow = false ∧ s.sclPort = true :=
  witness_StartAgainstHeldData_high

theorem witness_StopAgainstHeldData_low :
    let s : State := { afterStart with peerSdaLow := true }
    Boundary s ∧ Settled s ∧ s.sched = [] ∧ s.peerSdaLow = true ∧ s.peerSclLow = false ∧ s.sclPort = false :=
  witness_StartAgainstHeldData_low

theorem witness_TransferReturns :
    let s : State := { stretched with seq := .run .rd5 none }
    ((Instr.xferBit = .xferByte ∧ 0xFE#8 = 0xF0#8) ∨ (Instr.xferBit = .xferBit ∧ 0xFE#8 = 0xFE#8)) ∧ s.seq = .run .rd5 none ∧ s.en = true ∧ s.sclDir = true ∧ ClockReleased s :=
  ⟨.inr ⟨rfl, rfl⟩, rfl, rfl, rfl, ⟨by decide, by decide⟩⟩

theorem witness_TransferSamples_sending :
    let s : State := { afterStart with seq := .run .wb1 none }
    s.seq = .run .wb1 none ∧ s.en = true ∧ s.sclDir = true ∧ Settled s ∧ s.sched = [] ∧ s.peerSclLow = false ∧
      s.sdaDir = true ∧ s.sdaPort = true :=
  ⟨rfl, rfl, rfl, ⟨by decide, by decide⟩, rfl, rfl, rfl, rfl⟩

theorem witness_TransferSamples_listening :
    let s : State := { afterStart with seq := .run .wb3 none, sdaDir := false }
    s.seq = .run .wb3 none ∧ s.en = true ∧ s.sclDir = true ∧ Settled s ∧ s.sched = [] ∧ s.peerSclLow = false ∧
      s.sdaDir = false :=
  ⟨rfl, rfl, rfl, ⟨by decide, by decide⟩, rfl, rfl, rfl⟩

theorem witness_WrbResult : stretched.seq = .idle ∧ stretched.en = true ∧ stretched.sclDir = true ∧
    ClockReleased stretched := ⟨rfl, rfl, rfl, clockReleased_stretched⟩

theorem witness_RdbResult : stretched.seq = .idle ∧ stretched.en = true ∧ stretched.sclDir = true ∧
    ClockReleased stretched := witness_WrbResult

theorem witness_WraResult : stretched.seq = .idle ∧ stretched.en = true ∧ stretched.sclDir = true ∧
    ClockReleased stretched := witness_WrbResult

theorem witness_WrbOnSilentBus : Boundary afterStart ∧ Settled afterStart ∧ afterStart.sched = [] ∧
    Silent afterStart ∧ afterStart.sclPort = false :=
  ⟨boundary_afterStart, settled_afterStart, rfl, silent_afterStart, rfl⟩

theorem witness_WrbWithoutStart : Boundary afterInit ∧ Settled afterInit ∧ afterInit.sched = [] ∧
    Silent afterInit ∧ afterInit.sclPort = true :=
  ⟨boundary_afterInit, settled_afterInit, rfl, silent_afterInit, rfl⟩

theorem witness_WrbAcknowledged :
    let s : State := { afterStart with sched := ackMoves }
    Boundary s ∧ Settled s ∧ s.sched = ackMoves ∧ Silent s ∧ s.sclPort = false :=
  ⟨⟨rfl, rfl, rfl, rfl, rfl⟩, ⟨by decide, by decide⟩, rfl, ⟨rfl, rfl⟩, rfl⟩

theorem witness_RdbReceives :
    let s : State := { afterStart with sched := sendMoves 0x5A#8 }
    Boundary s ∧ Settled s ∧ s.sched = sendMoves 0x5A#8 ∧ Silent s ∧ s.sclPort = false :=
  ⟨⟨rfl, rfl, rfl, rfl, rfl⟩, ⟨by decide, by decide⟩, rfl, ⟨rfl, rfl⟩, rfl⟩

theorem witness_WraIsWrbOfComposedByte : Settled stretched := ⟨by decide, by decide⟩

theorem witness_AddressByte : (0x7F#8).getLsbD 7 = false := by decide

theorem witness_InitFrame : ∃ t, noReset stretched.sched = true ∧ exec .init stretched = .next t := ⟨_, rfl, rfl⟩

theorem witness_StartStopFrame : ∃ t, Instr.stop ∈ [Instr.start, Instr.stop] ∧ noReset stretched.sched = true ∧
    exec .stop stretched = .next t := ⟨_, by decide, rfl, rfl⟩

theorem witness_WriteByteFrame : (∃ t, noReset stretched.sched = true ∧ exec (.wrb 0x00#8) stretched = .next t) ∧
    ∃ t, exec (.wra 0x00#8 false) stretched = .next t := ⟨⟨_, rfl, rfl⟩, _, rfl⟩

theorem witness_ReadByteFrame : ∃ t, noReset stretched.sched = true ∧ exec (.rdb true) stretched = .next t :=
  ⟨_, rfl, rfl⟩

theorem witness_TransferFrame : ∃ t, Instr.xferBit ∈ [Instr.xferByte, Instr.xferBit] ∧
    exec .xferBit { stretched with seq := .run .wb3 none } = .next t := ⟨_, by decide, rfl⟩

theorem witness_OnlyInitConfigures : ∃ t, noReset [Turn.host 0x1000#16] = true ∧
    step { State.reset with sched := [.host 0x1000#16] } = .next t := ⟨_, rfl, rfl⟩

end Sys2Proof.Tests
end

section
/-! SUPPORT. The registers after reset and the line equations (10_state.md R15, R32). -/

namespace Sys2Proof.Proofs

open Sys2Proof.Machine Sys2Proof.Safety

/-- Settles O1: the literal of `State.reset`. -/
theorem resetRegisters : Obligations.ResetRegisters :=
  ⟨rfl, rfl, rfl, rfl, rfl, rfl, rfl, rfl, rfl, rfl, rfl, rfl, rfl⟩

/-! ### Who pulls a line -/

theorem masterSclLow_iff (s : State) : masterSclLow s = true ↔ s.sclDir = true ∧ s.sclPort = false := by
  simp [masterSclLow]

theorem masterSdaLow_iff (s : State) :
    masterSdaLow s = true ↔ s.sdaDir = true ∧ (s.sdaPort = false ∨ (s.en = true ∧ s.ol = false)) := by
  simp [masterSdaLow]

theorem sclLine_iff (s : State) : sclLine s = true ↔ ¬ masterSclLow s = true ∧ s.peerSclLow = false := by
  simp [sclLine]

theorem sdaLine_iff (s : State) : sdaLine s = true ↔ ¬ masterSdaLow s = true ∧ s.peerSdaLow = false := by
  simp [sdaLine]

/-- Settles O17, each line by who pulls it. -/
theorem lineLevels : Obligations.LineLevels := fun s =>
  ⟨by rw [sclLine_iff, masterSclLow_iff], by rw [sdaLine_iff, masterSdaLow_iff]⟩

end Sys2Proof.Proofs
end

section
/-! SUPPORT. Which micro-operation writes which register, and at which micro-steps of the tables it stands (10_state.md
R10). -/

namespace Sys2Proof.Proofs

open Sys2Proof.Machine Sys2Proof.Safety

variable {s : State} {op : MicroOp} {st : MicroStep} {x : Option XferStep}

/-! ### The micro-operations that write a register -/

theorem applyOp_sdaDir_ne (h : (applyOp op s).sdaDir ≠ s.sdaDir) : op = .sdaIn ∨ op = .sdaOut := by
  revert h; cases op <;> simp [applyOp]

theorem applyOp_sclDir_ne (h : (applyOp op s).sclDir ≠ s.sclDir) : op = .sclOut := by
  revert h; cases op <;> simp [applyOp]

theorem applyOp_sdaPort_ne (h : (applyOp op s).sdaPort ≠ s.sdaPort) : op = .sdaHigh ∨ op = .sdaLow := by
  revert h; cases op <;> simp [applyOp]

theorem applyOp_sclPort_ne (h : (applyOp op s).sclPort ≠ s.sclPort) :
    op = .sclHigh ∨ op = .sclLow ∨ op = .strobe := by
  revert h; cases op <;> simp [applyOp]

theorem applyOp_dr_ne (h : (applyOp op s).dr ≠ s.dr) :
    (∃ v, op = .writeDr v) ∨ op = .writeDrOperand ∨ op = .writeDrAck := by
  revert h; cases op <;> simp [applyOp]

theorem applyOp_status_ne (h : (applyOp op s).cf ≠ s.cf ∨ (applyOp op s).cnt ≠ s.cnt) :
    op = .strobe ∨ (∃ v, op = .writeSr v) ∨ op = .writeSrMask := by
  revert h; cases op <;> simp [applyOp]

theorem applyOp_en_ne (h : (applyOp op s).en ≠ s.en) : op = .enableUnit := by
  revert h; cases op <;> simp [applyOp]

theorem applyOp_xmask_ne (h : (applyOp op s).xmask ≠ s.xmask) : ∃ m, op = .callXfer m := by
  revert h; cases op <;> simp [applyOp]

theorem applyOp_opdD_ne (h : (applyOp op s).opdD ≠ s.opdD) : op = .composeAddress := by
  revert h; cases op <;> simp [applyOp]

theorem applyOp_tmp_ne (h : (applyOp op s).tmp ≠ s.tmp) : op = .readDr := by
  revert h; cases op <;> simp [applyOp]

theorem applyOp_rbuf_ne (h : (applyOp op s).rbuf ≠ s.rbuf) : op = .keepByte := by
  revert h; cases op <;> simp [applyOp]

theorem applyOp_res_ne (h : (applyOp op s).res ≠ s.res) : op = .resultAck ∨ op = .resultByte := by
  revert h; cases op <;> simp [applyOp]

/-- CR.EN and SCL_DIR are only ever set by a micro-operation (R12, R19). -/
theorem applyOp_en_of_en (op : MicroOp) (h : s.en = true) : (applyOp op s).en = true := by
  cases op <;> simp [applyOp, h]

theorem applyOp_sclDir_of_sclDir (op : MicroOp) (h : s.sclDir = true) : (applyOp op s).sclDir = true := by
  cases op <;> simp [applyOp, h]

/-! ### The micro-steps at which the writers of a register stand -/

theorem opAt_sdaDir_site (h : opAt st x = .sdaIn ∨ opAt st x = .sdaOut) :
    x = none ∧ st ∈ [.in0, .wb2, .wb4, .rd0, .rd3] := by
  cases x with
  | none => revert h; cases st <;> simp [opAt, commandOp]
  | some x => revert h; cases x <;> simp [opAt, xferOp]

theorem opAt_sclDir_site (h : opAt st x = .sclOut) : x = none ∧ st = .in1 := by
  cases x with
  | none => revert h; cases st <;> simp [opAt, commandOp]
  | some x => revert h; cases x <;> simp [opAt, xferOp]

theorem opAt_sdaPort_site (h : opAt st x = .sdaHigh ∨ opAt st x = .sdaLow) :
    x = none ∧ st ∈ [.in2, .st0, .st4, .st7, .sp0, .sp4] := by
  cases x with
  | none => revert h; cases st <;> simp [opAt, commandOp]
  | some x => revert h; cases x <;> simp [opAt, xferOp]

theorem opAt_sclPort_site (h : opAt st x = .sclHigh ∨ opAt st x = .sclLow ∨ opAt st x = .strobe) :
    (x = none ∧ st ∈ [.in3, .st1, .st6, .sp1]) ∨ x ∈ [some .xf0, some .xf3, some .xf6] := by
  cases x with
  | none => revert h; cases st <;> simp [opAt, commandOp]
  | some x => revert h; cases x <;> simp [opAt, xferOp]

theorem opAt_dr_site
    (h : (∃ v, opAt st x = .writeDr v) ∨ opAt st x = .writeDrOperand ∨ opAt st x = .writeDrAck) :
    (x = none ∧ st ∈ [.in4, .wb0, .rd4]) ∨ x = some .xf9 := by
  cases x with
  | none => revert h; cases st <;> simp [opAt, commandOp]
  | some x => revert h; cases x <;> simp [opAt, xferOp]

theorem opAt_status_site
    (h : opAt st x = .strobe ∨ (∃ v, opAt st x = .writeSr v) ∨ opAt st x = .writeSrMask) :
    (x = none ∧ st = .in6) ∨ x ∈ [some .xf1, some .xf3, some .xf6] := by
  cases x with
  | none => revert h; cases st <;> simp [opAt, commandOp]
  | some x => revert h; cases x <;> simp [opAt, xferOp]

theorem opAt_en_site (h : opAt st x = .enableUnit) : x = none ∧ st = .in5 := by
  cases x with
  | none => revert h; cases st <;> simp [opAt, commandOp]
  | some x => revert h; cases x <;> simp [opAt, xferOp]

theorem opAt_xmask_site (h : ∃ m, opAt st x = .callXfer m) : x = none ∧ st ∈ [.wb1, .wb3, .rd1, .rd5] := by
  cases x with
  | none => revert h; cases st <;> simp [opAt, commandOp]
  | some x => revert h; cases x <;> simp [opAt, xferOp]

theorem opAt_opdD_site (h : opAt st x = .composeAddress) : x = none ∧ st = .wa0 := by
  cases x with
  | none => revert h; cases st <;> simp [opAt, commandOp]
  | some x => revert h; cases x <;> simp [opAt, xferOp]

theorem opAt_tmp_site (h : opAt st x = .readDr) : x = some .xf8 := by
  cases x with
  | none => revert h; cases st <;> simp [opAt, commandOp]
  | some x => revert h; cases x <;> simp [opAt, xferOp]

theorem opAt_rbuf_site (h : opAt st x = .keepByte) : x = none ∧ st = .rd2 := by
  cases x with
  | none => revert h; cases st <;> simp [opAt, commandOp]
  | some x => revert h; cases x <;> simp [opAt, xferOp]

theorem opAt_res_site (h : opAt st x = .resultAck ∨ opAt st x = .resultByte) :
    x = none ∧ st ∈ [.wb5, .rd6] := by
  cases x with
  | none => revert h; cases st <;> simp [opAt, commandOp]
  | some x => revert h; cases x <;> simp [opAt, xferOp]

/-! ### What a block step can change -/

/-- A micro-step changes DR by its own write, or by the shift at a rising edge of the clock line (R26, R96). -/
theorem microStep_dr_ne (h : (microStep st x s).dr ≠ s.dr) :
    (applyOp (opAt st x) s).dr ≠ s.dr ∨
      ((microStep st x s).en = true ∧ s.sclq = false ∧ sclLine (microStep st x s) = true) := by
  let w : State := { applyOp (opAt st x) s with seq := nextSeq st x s }
  have hdr : (microStep st x s).dr = if risingEdge w then shiftIn w.dr (sdaLine w) else w.dr := by
    simp [microStep, w]
  cases hr : risingEdge w with
  | false => exact .inl (by simpa [hdr, hr] using h)
  | true => exact .inr (by simpa [risingEdge, microStep, w, and_assoc] using hr)

/-- Settles O20: a changed register names its writer, and the tables name the writer's sites. -/
theorem registerWriters : Obligations.RegisterWriters := by
  intro s st x hs
  rw [blockStep_run hs]
  obtain ⟨hsdaDir, hsclDir, hsdaPort, hsclPort, hcf, hcnt, hen, hxmask, hopdF, hopdD, htmp, hrbuf, hres⟩ :=
    microStep_registers s st x
  refine ⟨fun h => opAt_sdaDir_site (applyOp_sdaDir_ne (hsdaDir ▸ h)),
    fun h => opAt_sclDir_site (applyOp_sclDir_ne (hsclDir ▸ h)),
    fun h => opAt_sdaPort_site (applyOp_sdaPort_ne (hsdaPort ▸ h)),
    fun h => opAt_sclPort_site (applyOp_sclPort_ne (hsclPort ▸ h)),
    fun h => ?dr,
    fun h => opAt_status_site (applyOp_status_ne (hcf ▸ hcnt ▸ h)),
    fun h => opAt_en_site (applyOp_en_ne (hen ▸ h)),
    fun h => opAt_xmask_site (applyOp_xmask_ne (hxmask ▸ h)),
    hopdF.trans (applyOp_opdF s _),
    fun h => opAt_opdD_site (applyOp_opdD_ne (hopdD ▸ h)),
    fun h => opAt_tmp_site (applyOp_tmp_ne (htmp ▸ h)),
    fun h => opAt_rbuf_site (applyOp_rbuf_ne (hrbuf ▸ h)),
    fun h => opAt_res_site (applyOp_res_ne (hres ▸ h)),
    microStep_peerSdaLow s st x, microStep_peerSclLow s st x⟩
  rcases microStep_dr_ne h with hw | hedge
  · exact (opAt_dr_site (applyOp_dr_ne hw)).imp_right .inl
  · exact .inr (.inr hedge)

end Sys2Proof.Proofs
end

section
/-! SUPPORT. A step of the machine as turns: of the state itself, or of the state in which the idle host's word has been
accepted (R41, R69, R117); what every turn keeps, a step keeps. -/

namespace Sys2Proof.Proofs

open Sys2Proof.Machine Sys2Proof.Safety

variable {s t u : State}

/-! ### Decoding, as the sequencer meets it -/

/-- The command that decodes from a word is the command of a row the word matches (R61). -/
theorem decodeCmd_ok {w : CmdWord} {i : Instr} (h : decodeCmd w = .ok i) :
    ∃ r ∈ cmdRows, rowMatches w r = true ∧ i = commandOf r.op w := by
  unfold decodeCmd at h
  split at h
  · next r hr =>
    exact ⟨r, List.mem_of_find?_eq_some hr, List.find?_some hr, by injection h with h; exact h.symm⟩
  · cases h

/-- INIT has one word (R61). -/
theorem word_of_decodeCmd_init {w : CmdWord} (h : decodeCmd w = .ok .init) : w = 0x1000#16 := by
  obtain ⟨r, hr, hw, hi⟩ := decodeCmd_ok h
  simp only [cmdRows, List.mem_cons, List.not_mem_nil, or_false] at hr
  rcases hr with rfl | rfl | rfl | rfl | rfl | rfl <;> simp only [commandOf, reduceCtorEq] at hi
  have hall : w &&& 0xFFFF#16 = w := BitVec.and_allOnes
  simpa [rowMatches, hall] using hw

/-- The instruction of a mask calls the Transfer Primitive with that mask (R64). -/
theorem exec_of_decodeMask {m : Byte} {i : Instr} (h : decodeMask m = .ok i) (s : State) :
    exec i s = transfer m s := by
  unfold decodeMask at h
  split at h
  · next hm => injection h with h; subst h hm; rfl
  · split at h
    · next hm => injection h with h; subst h hm; rfl
    · cases h

/-! ### Acceptance -/

/-- `u` is `s` after the idle host's word has been accepted: OPD loaded, SEQ at the command's first step (R69). -/
def Accepted (s u : State) : Prop :=
  ∃ w rest i st f d, s.seq = .idle ∧ s.sched = .host w :: rest ∧ decodeCmd w = .ok i ∧ firstStep i = some st ∧
    u = accept st f d { s with sched := rest }

/-- In an idle state an instruction that answers is a command, and runs from its first step. -/
theorem exec_next_of_idle {i : Instr} (hs : s.seq = .idle) (h : exec i s = .next t) :
    ∃ st f d, firstStep i = some st ∧ t = runCommand (accept st f d s) := by
  cases i
  case xferByte | xferBit =>
    obtain ⟨st, hrun, -⟩ := transfer_next h
    simp [hs] at hrun
  all_goals exact ⟨_, _, _, rfl, (issue_next h).2⟩

/-! ### A step as turns -/

/-- A micro-step that calls the Transfer Primitive has the call as its micro-operation (R115). -/
theorem commandOp_of_callMask {st : MicroStep} {m : Byte} (h : callMask st = some m) :
    commandOp st = .callXfer m := by
  unfold callMask at h
  split at h
  · next hop => injection h with h; rw [hop, h]
  · cases h

/-- The word a step fetches, said once: the idle host's, or the mask at a call step, which the turn of the state calls. -/
theorem fetch_word_cases {c : Code} (h : fetch s = .word c u) :
    (∃ w rest, s.seq = .idle ∧ s.sched = .host w :: rest ∧ c = .command w ∧ u = { s with sched := rest }) ∨
    (∃ st m, u.seq = .run st none ∧ c = .mask m ∧ turn s = callXfer m st u) := by
  unfold fetch at h
  split at h
  · next hidle =>
    split at h
    · next w rest hs =>
      injection h with hc hu
      exact .inl ⟨w, rest, hidle, hs, hc.symm, hu.symm⟩
    · cases h
  · cases h
  · next st hrun =>
    split at h
    · cases h
    · next m hm =>
      have hop : commandOp st = .callXfer m := commandOp_of_callMask hm
      have hcall : ∀ v : State, v.seq = .run st none → blockStep v = callXfer m st v :=
        fun v hv => (blockStep_run hv).trans (microStep_call v hop)
      have hbusy : busy s = true := by simp [busy, hrun]
      split at h
      case h_1 rest hs =>
        injection h with hc hu
        subst hu
        exact .inr ⟨st, m, hrun, hc.symm, (turn_block hs).trans (hcall _ hrun)⟩
      case h_2 | h_3 => cases h
      all_goals
        next hs =>
        injection h with hc hu
        subst hu
        refine .inr ⟨st, m, hrun, hc.symm, Eq.trans ?_ (hcall _ hrun)⟩
        simp [turn, hs, hbusy]

/-- What a step does, said once: turns, of the state itself or of the state with the idle host's word accepted. -/
theorem step_eq_turns (h : step s = .next t) : ∃ u n, (u = s ∨ Accepted s u) ∧ t = turns n u := by
  rcases step_next h with ⟨c, u, i, hf, hd, he⟩ | ⟨-, rfl⟩
  · rcases fetch_word_cases hf with ⟨w, rest, hidle, hs, rfl, rfl⟩ | ⟨st, m, hrun, rfl, hturn⟩
    · obtain ⟨st, f, d, hst, rfl⟩ := exec_next_of_idle (s := { s with sched := rest }) hidle he
      obtain ⟨n, -, hn, -⟩ := runWhile_turns busy (turnBudget (accept st f d { s with sched := rest })) _
      exact ⟨_, n, .inr ⟨w, rest, i, st, f, d, hidle, hs, hd, hst, rfl⟩, hn⟩
    · rw [exec_of_decodeMask hd, transfer_run hrun, ← hturn] at he
      injection he with he
      obtain ⟨n, -, hn, -⟩ := runWhile_turns inXfer (turnBudget (turn s)) (turn s)
      exact ⟨s, n + 1, .inl rfl, he.symm.trans hn⟩
  · exact ⟨s, 1, .inl rfl, rfl⟩

/-! ### What every move keeps -/

/-- A property that the moves of the block and of the peer keep, and that does not look at the moves to come. -/
structure KeptByMoves (P : State → Prop) : Prop where
  block : ∀ s, P s → P (blockStep s)
  peer : ∀ a b s, P s → P (peerStep a b s)
  sched : ∀ moves s, P s → P { s with sched := moves }

theorem KeptByMoves.turn {P : State → Prop} (K : KeptByMoves P)
    (hreset : ∀ rest, s.sched = .reset :: rest → P (resetBlock { s with sched := rest })) (h : P s) :
    P (turn s) := by
  rcases turn_cases s with e | ⟨rest, -, e⟩ | ⟨a, b, rest, -, e⟩ | ⟨rest, hs, e⟩ | ⟨rest, -, -, e⟩ <;> rw [e]
  · exact K.block _ h
  · exact K.block _ (K.sched rest _ h)
  · exact K.peer a b _ (K.sched rest _ h)
  · exact hreset rest hs
  · exact K.sched rest _ h

/-- What every turn keeps, any number of turns keep. -/
theorem turns_keeps {P : State → Prop} (hturn : ∀ s, P s → P (turn s)) (n : Nat) (h : P s) : P (turns n s) := by
  induction n generalizing s with
  | zero => exact h
  | succ n ih => exact ih (hturn s h)

/-- With no reset to come, turns keep what the moves of the block and of the peer keep. -/
theorem KeptByMoves.turns {P : State → Prop} (K : KeptByMoves P) (hn : noReset s.sched = true) (n : Nat) (h : P s) :
    P (turns n s) := by
  refine (turns_keeps (P := fun v => noReset v.sched = true ∧ P v) (fun v hv => ?_) n ⟨hn, h⟩).2
  refine ⟨noReset_turn hv.1, K.turn (fun rest hs => ?_) hv.2⟩
  have := hv.1
  simp [hs, noReset] at this

/-- Where no reset stands among the moves, none stands there after the acceptance of a command. -/
theorem Accepted.noReset (h : Accepted s u) (hn : noReset s.sched = true) : noReset u.sched = true := by
  obtain ⟨w, rest, i, st, f, d, -, hs, -, -, rfl⟩ := h
  simpa [Safety.noReset, hs] using hn

end Sys2Proof.Proofs
end

section
/-! SUPPORT. CR.EN and SCL_DIR: set by INIT, cleared by reset only (10_state.md R12, R19, R31). -/

namespace Sys2Proof.Proofs

open Sys2Proof.Machine Sys2Proof.Safety

variable {s t u : State}

/-! ### Neither bit is cleared -/

@[simp] theorem microStep_en (st : MicroStep) (x : Option XferStep) (s : State) :
    (microStep st x s).en = (applyOp (opAt st x) s).en := by simp [microStep]

@[simp] theorem microStep_sclDir (st : MicroStep) (x : Option XferStep) (s : State) :
    (microStep st x s).sclDir = (applyOp (opAt st x) s).sclDir := by simp [microStep]

theorem kept_en : KeptByMoves fun v => v.en = true where
  block v h := by
    unfold blockStep
    split
    · exact h
    · simpa using applyOp_en_of_en _ h
  peer a b v h := by simpa [peerStep] using h
  sched _ _ h := h

theorem kept_sclDir : KeptByMoves fun v => v.sclDir = true where
  block v h := by
    unfold blockStep
    split
    · exact h
    · simpa using applyOp_sclDir_of_sclDir _ h
  peer a b v h := by simpa [peerStep] using h
  sched _ _ h := h

/-! ### A command other than INIT leaves both -/

/-- INIT is not running, and the two bits are `e` and `c`. -/
structure Unconfigured (e c : Bool) (s : State) : Prop where
  notInit : seqOp s.seq ≠ .init
  en : s.en = e
  sclDir : s.sclDir = c

/-- No micro-program runs into INIT. -/
theorem seqOp_afterStep_ne_init {st : MicroStep} (h : opOf st ≠ .init) : seqOp (afterStep st) ≠ .init := by
  revert h; cases st <;> simp [opOf, afterStep, seqOp]

theorem seqOp_follow_ne_init {st : MicroStep} (x : Option XferStep) (h : opOf st ≠ .init) :
    seqOp (follow st x) ≠ .init := by
  cases x with
  | none => exact seqOp_afterStep_ne_init h
  | some x =>
    cases x
    case xf9 => exact seqOp_afterStep_ne_init h
    all_goals exact h

theorem seqOp_nextSeq_ne_init {st : MicroStep} (x : Option XferStep) (s : State) (h : opOf st ≠ .init) :
    seqOp (nextSeq st x s) ≠ .init := by
  unfold nextSeq
  split
  · split
    · exact seqOp_follow_ne_init x h
    · exact h
  · exact h
  · exact h
  · exact seqOp_follow_ne_init x h

/-- The two writers of the bits, IN5 and IN1, are steps of INIT (R120). -/
theorem kept_unconfigured (e c : Bool) : KeptByMoves (Unconfigured e c) where
  block v h := by
    obtain ⟨hop, he, hc⟩ := h
    cases hs : v.seq with
    | idle => rw [blockStep_idle hs]; exact ⟨hop, he, hc⟩
    | run st x =>
      rw [hs] at hop
      rw [blockStep_run hs]
      refine ⟨by simpa using seqOp_nextSeq_ne_init x v hop, ?_, ?_⟩
      · rw [microStep_en, ← he]
        by_contra hne
        obtain ⟨-, rfl⟩ := opAt_en_site (applyOp_en_ne hne)
        exact hop rfl
      · rw [microStep_sclDir, ← hc]
        by_contra hne
        obtain ⟨-, rfl⟩ := opAt_sclDir_site (applyOp_sclDir_ne hne)
        exact hop rfl
  peer a b v h := ⟨by simpa using h.notInit, by simpa [peerStep] using h.en, by simpa [peerStep] using h.sclDir⟩
  sched _ _ h := ⟨h.notInit, h.en, h.sclDir⟩

theorem eq_init_of_firstStep {i : Instr} {st : MicroStep} (h : firstStep i = some st) (hop : opOf st = .init) :
    i = .init := by
  cases i
  case init => rfl
  all_goals
    cases h <;> cases hop

/-- The accepted command is not INIT, unless the word is INIT's. -/
theorem Accepted.unconfigured (h : Accepted s u) (hw : ¬ ∃ rest, s.seq = .idle ∧ s.sched = .host 0x1000#16 :: rest) :
    Unconfigured s.en s.sclDir u := by
  obtain ⟨w, rest, i, st, f, d, hidle, hs, hd, hst, rfl⟩ := h
  refine ⟨fun hop => hw ⟨rest, hidle, ?_⟩, rfl, rfl⟩
  rw [eq_init_of_firstStep hst hop] at hd
  rw [hs, word_of_decodeCmd_init hd]

/-- Settles O57: turns never clear a bit, and from any start but INIT's they keep both at the values of `s`. -/
theorem onlyInitConfigures : Obligations.OnlyInitConfigures := by
  intro s t hn h
  obtain ⟨u, n, hu, rfl⟩ := step_eq_turns h
  have hnu : noReset u.sched = true := by
    rcases hu with rfl | hu
    · exact hn
    · exact hu.noReset hn
  have hbits : u.en = s.en ∧ u.sclDir = s.sclDir := by
    rcases hu with rfl | ⟨w, rest, i, st, f, d, -, -, -, -, rfl⟩
    · exact ⟨rfl, rfl⟩
    · exact ⟨rfl, rfl⟩
  refine ⟨fun he => kept_en.turns hnu n (hbits.1.trans he),
    fun hc => kept_sclDir.turns hnu n (hbits.2.trans hc), fun hne => ?_⟩
  by_contra hno
  obtain ⟨hop, hw⟩ := not_or.mp hno
  have hstart : Unconfigured s.en s.sclDir u := by
    rcases hu with rfl | hu
    · exact ⟨hop, rfl, rfl⟩
    · exact hu.unconfigured hw
  obtain ⟨-, he, hc⟩ := (kept_unconfigured _ _).turns hnu n hstart
  exact hne.elim (· he) (· hc)

end Sys2Proof.Proofs
end

section
/-! SUPPORT. The line invariant: after reset, over a command's acceptance, over every move (10_state.md R34, R35). -/

namespace Sys2Proof.Proofs

open Sys2Proof.Machine Sys2Proof.Safety

variable {s t u : State} {st : MicroStep} {x y : Option XferStep}

/-- Settles O5: the reset values of R32, field by field. -/
theorem lineInvAtReset : Obligations.LineInvAtReset := by
  constructor <;> simp [CallOk, State.reset, sdaConfigured, sclConfigured]

/-- The registers of the line invariant, but for SEQ and XMASK, are in `t` as in `s`. -/
structure SameLines (s t : State) : Prop where
  en : t.en = s.en
  sdaDir : t.sdaDir = s.sdaDir
  sclDir : t.sclDir = s.sclDir
  sdaPort : t.sdaPort = s.sdaPort

theorem SameLines.trans (h : SameLines s t) (h' : SameLines t u) : SameLines s u where
  en := h'.en.trans h.en
  sdaDir := h'.sdaDir.trans h.sdaDir
  sclDir := h'.sclDir.trans h.sclDir
  sdaPort := h'.sdaPort.trans h.sdaPort

theorem SameLines.symm (h : SameLines s t) : SameLines t s where
  en := h.en.symm
  sdaDir := h.sdaDir.symm
  sclDir := h.sclDir.symm
  sdaPort := h.sdaPort.symm

theorem lineInv_of_same (h : LineInv s) (hlines : SameLines s t) (hseq : t.seq = s.seq) (hxmask : t.xmask = s.xmask) :
    LineInv t := by
  obtain ⟨hen, hsdaDir, hsclDir, hsdaPort⟩ := hlines
  exact {
    callOk := by rw [CallOk, hseq, hxmask]; exact h.callOk
    sclDir_of_en := by rw [hen, hsclDir]; exact h.sclDir_of_en
    sdaDir_of_en := by rw [hen, hsdaDir, hseq]; exact h.sdaDir_of_en
    sdaPort_or := by rw [hsdaPort, hseq]; exact h.sdaPort_or
    sdaDir_of_init := by rw [hsdaDir, hseq]; exact h.sdaDir_of_init
    sclDir_of_init := by rw [hsclDir, hseq]; exact h.sclDir_of_init }

/-- Under the invariant an idle state in which INIT has run is at the operation boundary (R35). -/
theorem boundary_of_lineInv (h : LineInv s) (hidle : s.seq = .idle) (hen : s.en = true) : Boundary s where
  idle := hidle
  sdaDir := (h.sdaDir_of_en hen).resolve_right (by simp [hidle, inputWindow])
  sclDir := h.sclDir_of_en hen
  sdaPort := h.sdaPort_or.resolve_right (by simp [hidle, pulledWindow])
  en := hen

/-- A command starts outside every window of the invariant. -/
theorem Accepted.lineInv (ha : Accepted s u) (h : LineInv s) : LineInv u := by
  obtain ⟨w, rest, i, st, f, d, hidle, -, -, hst, rfl⟩ := ha
  have hconf : sdaConfigured (.run st none) = false ∧ sclConfigured (.run st none) = false := by
    cases i <;> cases hst <;> exact ⟨rfl, rfl⟩
  exact {
    callOk := trivial
    sclDir_of_en := h.sclDir_of_en
    sdaDir_of_en := fun he => .inl (boundary_of_lineInv h hidle he).sdaDir
    sdaPort_or := .inl (h.sdaPort_or.resolve_right (by simp [hidle, pulledWindow]))
    sdaDir_of_init := fun hc => by simp [hconf.1] at hc
    sclDir_of_init := fun hc => by simp [hconf.2] at hc }

/-! ### SEQ stays at its micro-step -/

/-- No window tells the steps of the primitive apart. -/
theorem windows_run (st : MicroStep) (x y : Option XferStep) :
    inputWindow (.run st x) = inputWindow (.run st y) ∧ pulledWindow (.run st x) = pulledWindow (.run st y) ∧
    sdaConfigured (.run st x) = sdaConfigured (.run st y) ∧ sclConfigured (.run st x) = sclConfigured (.run st y) := by
  cases st <;> exact ⟨rfl, rfl, rfl, rfl⟩

theorem lineInv_stay (h : LineInv s) (hs : s.seq = .run st x) (hseq : t.seq = .run st y) (hlines : SameLines s t)
    (hcall : CallOk t) : LineInv t := by
  obtain ⟨hen, hsdaDir, hsclDir, hsdaPort⟩ := hlines
  obtain ⟨hwInput, hwPulled, hwSda, hwScl⟩ := windows_run st y x
  exact {
    callOk := hcall
    sclDir_of_en := by rw [hen, hsclDir]; exact h.sclDir_of_en
    sdaDir_of_en := by rw [hen, hsdaDir, hseq, hwInput, ← hs]; exact h.sdaDir_of_en
    sdaPort_or := by rw [hsdaPort, hseq, hwPulled, ← hs]; exact h.sdaPort_or
    sdaDir_of_init := by rw [hsdaDir, hseq, hwSda, ← hs]; exact h.sdaDir_of_init
    sclDir_of_init := by rw [hsclDir, hseq, hwScl, ← hs]; exact h.sclDir_of_init }

/-! ### SEQ goes on to the next micro-step -/

section AfterStep

variable (s st)

/-- SDA_IN stands before the window, SDA_OUT at its end; IN5 comes after IN0 (R34, R120). -/
theorem sdaDir_afterStep (h : s.en = true → s.sdaDir = true ∨ inputWindow (.run st none) = true)
    (hinit : sdaConfigured (.run st none) = true → s.sdaDir = true)
    (he : (applyOp (commandOp st) s).en = true) :
    (applyOp (commandOp st) s).sdaDir = true ∨ inputWindow (afterStep st) = true := by
  revert h hinit he
  cases st <;> simp +contextual [commandOp, applyOp, inputWindow, sdaConfigured, afterStep]

/-- IN5 comes after IN1 (R120). -/
theorem sclDir_afterStep (h : s.en = true → s.sclDir = true)
    (hinit : sclConfigured (.run st none) = true → s.sclDir = true) (he : (applyOp (commandOp st) s).en = true) :
    (applyOp (commandOp st) s).sclDir = true := by
  revert h hinit he
  cases st <;> simp +contextual [commandOp, applyOp, sclConfigured]

/-- SDA_LOW stands before a window, SDA_HIGH at its end (R121, R122). -/
theorem sdaPort_afterStep (h : s.sdaPort = true ∨ pulledWindow (.run st none) = true) :
    (applyOp (commandOp st) s).sdaPort = true ∨ pulledWindow (afterStep st) = true := by
  revert h
  cases st <;> simp [commandOp, applyOp, pulledWindow, afterStep]

/-- IN0 sets SDA_DIR, and INIT does not clear it (R120). -/
theorem sdaDir_afterStep_init (h : sdaConfigured (.run st none) = true → s.sdaDir = true)
    (hc : sdaConfigured (afterStep st) = true) : (applyOp (commandOp st) s).sdaDir = true := by
  revert h hc
  cases st <;> simp [commandOp, applyOp, sdaConfigured, afterStep]

/-- IN1 sets SCL_DIR, and INIT does not clear it (R120). -/
theorem sclDir_afterStep_init (h : sclConfigured (.run st none) = true → s.sclDir = true)
    (hc : sclConfigured (afterStep st) = true) : (applyOp (commandOp st) s).sclDir = true := by
  revert h hc
  cases st <;> simp [commandOp, applyOp, sclConfigured, afterStep]

end AfterStep

/-- A micro-step of a command is entered outside the primitive. -/
theorem callOk_of_afterStep (hseq : t.seq = afterStep st) : CallOk t := by
  unfold CallOk
  rw [hseq]
  cases st <;> exact trivial

theorem lineInv_leave (h : LineInv s) (hs : s.seq = .run st x) (hseq : t.seq = afterStep st)
    (hlines : SameLines (applyOp (commandOp st) s) t) : LineInv t := by
  obtain ⟨hen, hsdaDir, hsclDir, hsdaPort⟩ := hlines
  obtain ⟨-, hscl, hsda, hport, hsdaInit, hsclInit⟩ := h
  obtain ⟨hwInput, hwPulled, hwSda, hwScl⟩ := windows_run st x none
  rw [hs, hwInput] at hsda
  rw [hs, hwPulled] at hport
  rw [hs, hwSda] at hsdaInit
  rw [hs, hwScl] at hsclInit
  exact {
    callOk := callOk_of_afterStep hseq
    sclDir_of_en := by rw [hen, hsclDir]; exact sclDir_afterStep s st hscl hsclInit
    sdaDir_of_en := by rw [hen, hsdaDir, hseq]; exact sdaDir_afterStep s st hsda hsdaInit
    sdaPort_or := by rw [hsdaPort, hseq]; exact sdaPort_afterStep s st hport
    sdaDir_of_init := by rw [hsdaDir, hseq]; exact sdaDir_afterStep_init s st hsdaInit
    sclDir_of_init := by rw [hsclDir, hseq]; exact sclDir_afterStep_init s st hsclInit }

/-! ### One micro-step -/

theorem sameLines_microStep (st : MicroStep) (x : Option XferStep) (s : State) :
    SameLines (applyOp (opAt st x) s) (microStep st x s) := by
  constructor <;> simp [microStep]

/-- The primitive writes none of the registers (R113). -/
theorem sameLines_xferOp (a : XferStep) (s : State) : SameLines s (applyOp (xferOp a) s) := by
  cases a <;> constructor <;> simp [xferOp, applyOp]

theorem xferOp_xmask (a : XferStep) (s : State) : (applyOp (xferOp a) s).xmask = s.xmask := by
  cases a <;> simp [xferOp, applyOp]

theorem sameLines_callXfer (m : Byte) (s : State) : SameLines s (applyOp (.callXfer m) s) := ⟨rfl, rfl, rfl, rfl⟩

/-- Where SEQ goes from a micro-step outside the primitive: on, or nowhere at a wait, or into the primitive. -/
theorem nextSeq_none_cases (st : MicroStep) (s : State) :
    nextSeq st none s = afterStep st ∨ (commandOp st = .waitSclHigh ∧ nextSeq st none s = .run st none) ∨
    ∃ m, commandOp st = .callXfer m ∧ nextSeq st none s = .run st (some .xf0) := by
  unfold nextSeq
  split
  · next hop =>
    split
    · exact .inl rfl
    · exact .inr (.inl ⟨hop, rfl⟩)
  · next m hop => exact .inr (.inr ⟨m, hop, rfl⟩)
  · next hop => cases st <;> simp [opAt, commandOp] at hop
  · exact .inl rfl

/-- Where SEQ goes from a step of the primitive: to another one, or back to the caller's next step (R117). -/
theorem nextSeq_some_cases (st : MicroStep) (a : XferStep) (s : State) :
    nextSeq st (some a) s = afterStep st ∨ ∃ b, nextSeq st (some a) s = .run st (some b) := by
  cases a
  case xf9 => exact .inl rfl
  case xf4 =>
    simp only [nextSeq, opAt, xferOp]
    split
    · exact .inr ⟨.xf5, rfl⟩
    · exact .inr ⟨.xf4, rfl⟩
  all_goals exact .inr ⟨_, rfl⟩

theorem lineInv_commandStep (h : LineInv s) (hs : s.seq = .run st none) : LineInv (microStep st none s) := by
  have hlines : SameLines (applyOp (commandOp st) s) (microStep st none s) := sameLines_microStep st none s
  rcases nextSeq_none_cases st s with hseq | ⟨hop, hseq⟩ | ⟨m, hop, hseq⟩
  · exact lineInv_leave h hs ((microStep_seq s st none).trans hseq) hlines
  · rw [hop] at hlines
    refine lineInv_stay h hs ((microStep_seq s st none).trans hseq) hlines ?_
    simp [CallOk, hseq]
  · rw [hop] at hlines
    refine lineInv_stay h hs ((microStep_seq s st none).trans hseq) ((sameLines_callXfer m s).trans hlines) ?_
    simp [CallOk, hseq, callMask, hop, microStep, opAt, applyOp]

theorem lineInv_xferStep {a : XferStep} (h : LineInv s) (hs : s.seq = .run st (some a)) :
    LineInv (microStep st (some a) s) := by
  have hlines := (sameLines_xferOp a s).trans (sameLines_microStep st (some a) s)
  have hcall : callMask st = some s.xmask := by simpa [CallOk, hs] using h.callOk
  rcases nextSeq_some_cases st a s with hseq | ⟨b, hseq⟩
  · refine lineInv_leave h hs ((microStep_seq s st (some a)).trans hseq) ?_
    rw [commandOp_of_callMask hcall]
    exact (sameLines_callXfer _ s).symm.trans hlines
  · refine lineInv_stay h hs ((microStep_seq s st (some a)).trans hseq) hlines ?_
    simp [CallOk, hseq, hcall, microStep, opAt, xferOp_xmask]

theorem kept_lineInv : KeptByMoves LineInv where
  block v h := by
    cases hs : v.seq with
    | idle => rwa [blockStep_idle hs]
    | run st x =>
      rw [blockStep_run hs]
      cases x with
      | none => exact lineInv_commandStep h hs
      | some a => exact lineInv_xferStep h hs
  peer a b v h := lineInv_of_same h (by constructor <;> simp [peerStep]) (by simp) (by simp [peerStep])
  sched _ _ h := lineInv_of_same h ⟨rfl, rfl, rfl, rfl⟩ rfl rfl

theorem lineInv_resetBlock (s : State) : LineInv (resetBlock s) :=
  lineInv_of_same lineInvAtReset (by constructor <;> simp [resetBlock, State.reset]) (by simp [State.reset])
    (by simp [resetBlock, State.reset])

theorem lineInv_turn (h : LineInv s) : LineInv (turn s) :=
  kept_lineInv.turn (fun _ _ => lineInv_resetBlock _) h

/-- Settles O6: a step is turns, from the state or from an accepted command, and acceptance and every turn keep the
invariant. -/
theorem lineInvKept : Obligations.LineInvKept := by
  intro s t h hstep
  obtain ⟨u, n, hu, rfl⟩ := step_eq_turns hstep
  have hinv : LineInv u := by
    rcases hu with rfl | hu
    · exact h
    · exact hu.lineInv h
  have hend : LineInv (turns n u) := turns_keeps (fun _ hv => lineInv_turn hv) n hinv
  exact ⟨hend, boundary_of_lineInv hend⟩

end Sys2Proof.Proofs
end

section
/-! SUPPORT. settle(), a peer's step, and settled states: the reaction of the shift unit to the lines, what it leaves
alone, and that every step ends with nothing left to settle (20_memory.md R42, R44). -/

namespace Sys2Proof.Proofs

open Sys2Proof.Machine Sys2Proof.Safety

variable {s t u : State}

/-! ### What settle() does -/

theorem risingEdge_iff (s : State) : risingEdge s = true ↔ s.en = true ∧ s.sclq = false ∧ sclLine s = true := by
  simp [risingEdge, and_assoc]

theorem settleShift_eq (s : State) : settleShift s = { s with dr := (settleShift s).dr } := by
  unfold settleShift; split <;> rfl

theorem settleLatch_eq (s : State) : settleLatch s = { s with ol := (settleLatch s).ol } := by
  unfold settleLatch; split <;> rfl

/-- settle() writes DR, OL and SCLQ only: each of its three parts writes one of them. -/
theorem settle_eq (s : State) :
    settle s = { s with dr := (settle s).dr, ol := (settle s).ol, sclq := (settle s).sclq } := by
  calc settle s
    _ = { settleClock (settleShift s) with ol := (settle s).ol } := settleLatch_eq _
    _ = { settleShift s with ol := (settle s).ol, sclq := (settle s).sclq } := by simp [settleClock]
    _ = { s with dr := (settle s).dr, ol := (settle s).ol, sclq := (settle s).sclq } := by
      rw [settleShift_eq]; simp

/-- Settles O18: the shift happens at a rising edge, and there the latch is closed. -/
theorem settleReaction : Obligations.SettleReaction := by
  intro s
  rw [← risingEdge_iff]
  refine ⟨fun hr => ⟨?shift, ?keep⟩, fun hr => ?still, settle_sclq s, fun hopen => ?transparent,
    fun ⟨hen, hhigh⟩ => settle_ol_of_high hen hhigh, settle_eq s⟩
  case shift => rw [settle_dr, if_pos hr, shiftIn]
  case keep =>
    obtain ⟨hen, -, hhigh⟩ := (risingEdge_iff s).mp hr
    exact settle_ol_of_high hen hhigh
  case still => rw [settle_dr, if_neg hr]
  case transparent => rw [settle_ol, if_pos (by simpa using hopen)]

/-! ### A peer's step -/

/-- Settles O19: a peer's step is its two inputs and settle(), which shifts at a rising edge only. -/
theorem peerReach : Obligations.PeerReach := by
  intro s a b
  obtain ⟨hshift, hstill, -⟩ := settleReaction { s with peerSdaLow := a, peerSclLow := b }
  have hdr : (peerStep a b s).dr = (settle { s with peerSdaLow := a, peerSclLow := b }).dr := finish_dr _ s
  have hline : sclLine (peerStep a b s) = sclLine { s with peerSdaLow := a, peerSclLow := b } := sclLine_finish _ s
  refine ⟨?_, ?_, ?_, ?_, ?_, ?_, ?_, ?_, ?_, ?_, ?_, ?_, ?_, ?_, ?_, ?_, ?_, ?dr⟩
  case dr =>
    rw [hdr, hline]
    by_cases hr : s.en = true ∧ s.sclq = false ∧ sclLine { s with peerSdaLow := a, peerSclLow := b } = true
    · exact .inr ⟨hr.1, hr.2.1, hr.2.2, _, (hshift hr).1⟩
    · exact .inl (hstill hr)
  all_goals simp [peerStep]

/-! ### Settled states -/

/-- Settles O3: with the clock released SCLQ is 1, and OL is DR[7] of 0xFF. -/
theorem settledAtReset : Obligations.SettledAtReset := ⟨rfl, fun _ => rfl⟩

/-- A move of the block or of the peer ends with settle(); an idle block has no move. -/
theorem kept_settled : KeptByMoves Settled where
  block v h := by
    cases hs : v.seq with
    | idle => rwa [blockStep_idle hs]
    | run st x => rw [blockStep_run hs]; exact settled_finish _ _
  peer a b v _ := settled_finish _ _
  sched _ _ h := h

theorem settled_turn (h : Settled s) : Settled (turn s) :=
  kept_settled.turn (fun _ _ => settled_finish _ _) h

/-- The acceptance of a command changes no line, and neither DR nor the unit's latches (log entry 13). -/
theorem Accepted.settled (ha : Accepted s u) (h : Settled s) : Settled u := by
  obtain ⟨w, rest, i, st, f, d, -, -, -, -, rfl⟩ := ha
  exact h

/-- Settles O4: a step is turns, from the state or from an accepted command, and acceptance and every turn keep a state
settled. -/
theorem settledKept : Obligations.SettledKept := by
  intro s t h hstep
  obtain ⟨u, n, hu, rfl⟩ := step_eq_turns hstep
  have hstart : Settled u := by
    rcases hu with rfl | hu
    · exact h
    · exact hu.settled h
  exact turns_keeps (fun _ hv => settled_turn hv) n hstart

end Sys2Proof.Proofs
end

section
/-! SUPPORT. Host commands and their acceptance: what a presented word loads, refusal while BUSY = 1, and how many turns
a step is (20_memory.md R41, R43; 30_encoding.md R62, R69). -/

namespace Sys2Proof.Proofs

open Sys2Proof.Machine Sys2Proof.Safety

variable {s t : State}

/-! ### A host command in a busy state -/

theorem exec_of_isCommand {i : Instr} (h : i.isCommand = true) :
    ∃ st f d, ∀ s, exec i s = issue st f d s := by
  cases i
  case xferByte | xferBit => simp [Instr.isCommand] at h
  all_goals exact ⟨_, _, _, fun _ => rfl⟩

theorem issue_busy (h : busy s = true) (st : MicroStep) (f : Bool) (d : Byte) : issue st f d s = .refused .busy := by
  cases hs : s.seq with
  | idle => simp [busy, hs] at h
  | run st' x => simp [issue, hs]

/-- Settles O15: a host move that comes in a busy state leaves the turn to the block, and issuing needs an idle
sequencer. -/
theorem hostWaitsWhileBusy : Obligations.HostWaitsWhileBusy := by
  intro s hb
  refine ⟨fun w rest hs => ?_, fun rest hs => ?_, fun i hi => ?_⟩
  · have hturn : turn s = blockStep s := turn_host_busy hs
    exact ⟨hturn, by rw [hturn, blockStep_sched]⟩
  · have hturn : turn s = blockStep s := turn_hostRead_busy hs hb
    exact ⟨hturn, by rw [hturn, blockStep_sched]⟩
  · obtain ⟨st, f, d, hexec⟩ := exec_of_isCommand hi
    rw [hexec, issue_busy hb]

/-! ### The operands a word loads -/

/-- A row whose mask fixes F gives the word the F of its pattern (R61). -/
theorem fField_of_rowMatches {w : CmdWord} {r : CmdRow} (h : rowMatches w r = true) (hm : fField r.mask = true) :
    fField w = fField r.pattern := by
  have hw : w &&& r.mask = r.pattern := by simpa [rowMatches] using h
  have hm : r.mask.getLsbD 8 = true := hm
  rw [← hw, fField, fField, BitVec.getLsbD_and, hm, Bool.and_true]

/-- A row whose mask fixes D gives the word the D of its pattern (R61). -/
theorem dField_of_rowMatches {w : CmdWord} {r : CmdRow} (h : rowMatches w r = true) (hm : dField r.mask = 0xFF#8) :
    dField w = dField r.pattern := by
  have hw : w &&& r.mask = r.pattern := by simpa [rowMatches] using h
  have hm : r.mask.extractLsb' 0 8 = BitVec.allOnes 8 := hm
  rw [← hw, dField, dField, BitVec.extractLsb'_and, hm, BitVec.and_allOnes]

/-- A command runs from its first step with the operands its word holds in the fields F and D; where it has no operand
there, its row fixes the field to 0 (R62, R69). -/
theorem exec_of_decodeCmd {w : CmdWord} {i : Instr} (h : decodeCmd w = .ok i) :
    ∃ st, firstStep i = some st ∧ ∀ s, exec i s = issue st (fField w) (dField w) s := by
  obtain ⟨r, hr, hw, rfl⟩ := decodeCmd_ok h
  simp only [cmdRows, List.mem_cons, List.not_mem_nil, or_false] at hr
  rcases hr with rfl | rfl | rfl | rfl | rfl | rfl
  -- INIT, START and STOP: neither operand
  case inl | inr.inl | inr.inr.inl =>
    rw [fField_of_rowMatches hw rfl, dField_of_rowMatches hw rfl]
    exact ⟨_, rfl, fun _ => rfl⟩
  -- WRB: no F
  case inr.inr.inr.inl =>
    rw [fField_of_rowMatches hw rfl]
    exact ⟨_, rfl, fun _ => rfl⟩
  -- RDB: no D
  case inr.inr.inr.inr.inl =>
    rw [dField_of_rowMatches hw rfl]
    exact ⟨_, rfl, fun _ => rfl⟩
  -- WRA: both
  case inr.inr.inr.inr.inr => exact ⟨_, rfl, fun _ => rfl⟩

/-! ### How many turns a step is -/

theorem fetch_presented {w : CmdWord} {rest : List Turn} (hidle : s.seq = .idle) (hs : s.sched = .host w :: rest) :
    fetch s = .word (.command w) { s with sched := rest } := by
  simp [fetch, hidle, hs]

/-- A step on a presented word is the turns of the accepted command (R69). -/
theorem step_presented {w : CmdWord} {rest : List Turn} (hidle : s.seq = .idle) (hs : s.sched = .host w :: rest)
    (h : step s = .next t) :
    ∃ i st, decodeCmd w = .ok i ∧ firstStep i = some st ∧
      t = runCommand (accept st (fField w) (dField w) { s with sched := rest }) := by
  rcases step_next h with ⟨c, u, i, hf, hd, he⟩ | ⟨hf, -⟩ <;> rw [fetch_presented hidle hs] at hf
  · injection hf with hc hu
    subst hc hu
    obtain ⟨st, hst, hexec⟩ := exec_of_decodeCmd hd
    rw [hexec] at he
    exact ⟨i, st, hd, hst, (issue_next he).2⟩
  · cases hf

/-- A step on anything else is one turn, or, where the turn calls the Transfer Primitive, that turn and those of the
primitive (R117). -/
theorem step_not_presented (hno : ¬ (s.seq = .idle ∧ ∃ w rest, s.sched = .host w :: rest)) (h : step s = .next t) :
    (fetch s = .move ∧ t = turn s) ∨ (fetch s ≠ .move ∧ t = runXfer (turn s)) := by
  rcases step_next h with ⟨c, u, i, hf, hd, he⟩ | hmove
  · rcases fetch_word_cases hf with ⟨w, rest, hidle, hs, -⟩ | ⟨st, m, hrun, rfl, hturn⟩
    · exact absurd ⟨hidle, w, rest, hs⟩ hno
    · rw [exec_of_decodeMask hd, transfer_run hrun, ← hturn] at he
      injection he with he
      exact .inr ⟨by simp [hf], he.symm⟩
  · exact .inl hmove

/-- Settles O14: a run of a command or of the primitive is turns, each but the last from a state that goes on
(`runWhile_turns`). -/
theorem stepIsTurns : Obligations.StepIsTurns := by
  intro s t h
  refine ⟨fun w rest hidle hs => ?_, fun hno => ?_⟩
  · obtain ⟨i, st, hd, hst, rfl⟩ := step_presented hidle hs h
    obtain ⟨n, -, hn⟩ :=
      runWhile_turns busy (turnBudget (accept st (fField w) (dField w) { s with sched := rest })) _
    exact ⟨i, st, n, hd, hst, hn⟩
  · rcases step_not_presented hno h with ⟨hf, rfl⟩ | ⟨hf, rfl⟩
    · exact ⟨1, Nat.one_pos, rfl, fun k h0 h1 => by omega, fun _ => rfl, fun hne => absurd hf hne⟩
    · obtain ⟨n, -, hn, hgo, hend⟩ := runWhile_turns inXfer (turnBudget (turn s)) (turn s)
      refine ⟨n + 1, n.succ_pos, hn, fun k h0 hk => ?_, fun he => absurd he hf,
        fun _ hin => by rw [hend hin, Nat.add_comm]⟩
      obtain ⟨k, rfl⟩ := Nat.exists_eq_add_one.mpr h0
      exact hgo k (by omega)

end Sys2Proof.Proofs
end

section
/-! SUPPORT. Command words by their fields and by the rows of the opcode map: decoding and encoding, the reserved words,
the assembler lines (30_encoding.md R60, R61, R64, R65, R67). -/

namespace Sys2Proof.Proofs

open Sys2Proof.Machine Sys2Proof.Safety

variable {w : CmdWord} {r r' : CmdRow} {i : Instr}

/-! ### The fields of a word as numbers (R60) -/

theorem toNat_opcField (w : CmdWord) : (opcField w).toNat = w.toNat / 4096 := by
  simp only [opcField, BitVec.extractLsb'_toNat, Nat.shiftRight_eq_div_pow]
  omega

theorem toNat_zField (w : CmdWord) : (zField w).toNat = w.toNat / 512 % 8 := by
  rw [zField, BitVec.extractLsb'_toNat, Nat.shiftRight_eq_div_pow]

theorem toNat_fField (w : CmdWord) : (fField w).toNat = w.toNat / 256 % 2 := by
  rw [fField, BitVec.getLsbD, Nat.toNat_testBit]

theorem toNat_dField (w : CmdWord) : (dField w).toNat = w.toNat % 256 := by
  rw [dField, BitVec.extractLsb'_toNat, Nat.shiftRight_zero]

theorem toNat_append_eq_add {m n : Nat} (x : BitVec m) (y : BitVec n) :
    (x ++ y).toNat = 2 ^ n * x.toNat + y.toNat := by
  rw [BitVec.toNat_append, ← Nat.shiftLeft_add_eq_or_of_lt y.isLt, Nat.shiftLeft_eq, Nat.mul_comm]

theorem toNat_packFields (opc : BitVec 4) (f : Bool) (d : Byte) :
    (packFields opc f d).toNat = 4096 * opc.toNat + 256 * f.toNat + d.toNat := by
  have happend : (packFields opc f d).toNat = 2 ^ 8 * (opc ++ 0#3 ++ BitVec.ofBool f).toNat + d.toNat :=
    toNat_append_eq_add _ d
  rw [happend, toNat_append_eq_add, toNat_append_eq_add, BitVec.toNat_ofBool, BitVec.toNat_ofNat]
  omega

@[simp] theorem opcField_packFields (opc : BitVec 4) (f : Bool) (d : Byte) : opcField (packFields opc f d) = opc := by
  apply BitVec.eq_of_toNat_eq
  rw [toNat_opcField, toNat_packFields]
  have := f.toNat_lt
  omega

@[simp] theorem zField_packFields (opc : BitVec 4) (f : Bool) (d : Byte) : zField (packFields opc f d) = 0#3 := by
  apply BitVec.eq_of_toNat_eq
  rw [toNat_zField, toNat_packFields, BitVec.toNat_ofNat]
  have := f.toNat_lt
  omega

@[simp] theorem fField_packFields (opc : BitVec 4) (f : Bool) (d : Byte) : fField (packFields opc f d) = f := by
  have hf : (fField (packFields opc f d)).toNat = f.toNat := by
    rw [toNat_fField, toNat_packFields]
    have := f.toNat_lt
    omega
  rw [← Bool.ofNat_toNat (fField _), hf, Bool.ofNat_toNat]

@[simp] theorem dField_packFields (opc : BitVec 4) (f : Bool) (d : Byte) : dField (packFields opc f d) = d := by
  apply BitVec.eq_of_toNat_eq
  rw [toNat_dField, toNat_packFields]
  omega

/-- A word whose Z is 000 is packed from its other fields. -/
theorem packFields_fields (hz : zField w = 0#3) : packFields (opcField w) (fField w) (dField w) = w := by
  have hz : w.toNat / 512 % 8 = 0 := by rw [← toNat_zField, hz, BitVec.toNat_ofNat]
  apply BitVec.eq_of_toNat_eq
  rw [toNat_packFields, toNat_opcField, toNat_fField, toNat_dField]
  omega

/-! ### The rows do not overlap (R61) -/

/-- A word of a row has the pattern's bit wherever the row's mask has a 1. -/
theorem getLsbD_of_rowMatches {k : Nat} (h : rowMatches w r = true) (hm : r.mask.getLsbD k = true) :
    w.getLsbD k = r.pattern.getLsbD k := by
  have hw : w &&& r.mask = r.pattern := by simpa [rowMatches] using h
  rw [← hw, BitVec.getLsbD_and, hm, Bool.and_true]

theorem masks_fix_opc_z :
    ∀ r ∈ cmdRows, r.mask.extractLsb' 12 4 = BitVec.allOnes 4 ∧ r.mask.extractLsb' 9 3 = BitVec.allOnes 3 := by
  decide

/-- Every row fixes OPC and Z: a word of the row has those of its pattern. -/
theorem opcField_zField_of_rowMatches (hr : r ∈ cmdRows) (h : rowMatches w r = true) :
    opcField w = opcField r.pattern ∧ zField w = zField r.pattern := by
  have hw : w &&& r.mask = r.pattern := by simpa [rowMatches] using h
  obtain ⟨hopc, hz⟩ := masks_fix_opc_z r hr
  rw [← hw, opcField, opcField, zField, zField, BitVec.extractLsb'_and, BitVec.extractLsb'_and, hopc, hz,
    BitVec.and_allOnes, BitVec.and_allOnes]
  exact ⟨rfl, rfl⟩

theorem row_eq_of_opcField_eq :
    ∀ r ∈ cmdRows, ∀ r' ∈ cmdRows, opcField r.pattern = opcField r'.pattern → r = r' := by
  decide

/-- No word is in two rows: the rows differ in OPC. -/
theorem row_unique (hr : r ∈ cmdRows) (hr' : r' ∈ cmdRows) (h : rowMatches w r = true)
    (h' : rowMatches w r' = true) : r = r' :=
  row_eq_of_opcField_eq r hr r' hr' <|
    (opcField_zField_of_rowMatches hr h).1.symm.trans (opcField_zField_of_rowMatches hr' h').1

/-- A word decodes to the command of the row it is in, and to nothing else. -/
theorem decodeCmd_ok_iff : decodeCmd w = .ok i ↔ ∃ r ∈ cmdRows, rowMatches w r = true ∧ i = commandOf r.op w := by
  refine ⟨decodeCmd_ok, ?_⟩
  rintro ⟨r, hr, hw, rfl⟩
  have hfound : (cmdRows.find? (rowMatches w)).isSome := List.find?_isSome.mpr ⟨r, hr, hw⟩
  obtain ⟨r', hr'⟩ := Option.isSome_iff_exists.mp hfound
  have hrow : r' = r := row_unique (List.mem_of_find?_eq_some hr') hr (List.find?_some hr') hw
  rw [decodeCmd, hr', hrow]

/-- Settles O9: of the six rows only the command's own yields it. -/
theorem opcodeMap : Obligations.OpcodeMap := by
  intro w
  simp [decodeCmd_ok_iff, cmdRows, rowMatches, commandOf, dField, fField]

/-! ### Encoding and decoding (R60, R61, R64) -/

/-- Settles O7: the word of a command lies in the command's own row and has the operands in its fields. -/
theorem decodeEncode : Obligations.DecodeEncode := by
  intro i hi
  cases i
  case init | start | stop | xferByte | xferBit => rfl
  case wrb d =>
    exact decodeCmd_ok_iff.mpr ⟨⟨.wrb, 0x4000#16, 0xFF00#16⟩, by decide, Laws.OwnRow.wrb d, by simp [commandOf]⟩
  case rdb more =>
    exact decodeCmd_ok_iff.mpr ⟨⟨.rdb, 0x5000#16, 0xFEFF#16⟩, by decide, Laws.OwnRow.rdb more, by simp [commandOf]⟩
  case wra d isWrite =>
    exact decodeCmd_ok_iff.mpr
      ⟨⟨.wra, 0x6000#16, 0xFE80#16⟩, by decide, Laws.OwnRow.wra d isWrite hi, by simp [commandOf]⟩

theorem zField_pattern : ∀ r ∈ cmdRows, zField r.pattern = 0#3 := by decide

/-- A word of a row is packed from the row's OPC and its own F and D. -/
theorem packFields_of_rowMatches (hr : r ∈ cmdRows) (h : rowMatches w r = true) :
    packFields (opcField r.pattern) (fField w) (dField w) = w := by
  obtain ⟨hopc, hz⟩ := opcField_zField_of_rowMatches hr h
  rw [← hopc]
  exact packFields_fields (hz.trans (zField_pattern r hr))

/-- The bit that must be 0 in WRA, as a bit of the word and of D. -/
theorem getLsbD_dField (w : CmdWord) : (dField w).getLsbD 7 = w.getLsbD 7 := by
  simp [dField]

theorem wellFormed_wra (d : Byte) (isWrite : Bool) : (Instr.wra d isWrite).WellFormed ↔ d.getLsbD 7 = false := by
  rw [Instr.WellFormed, Instr.wellFormed, Bool.not_eq_true']

/-- The command of a word of a row is well-formed, and the word is its word: where the command has no operand, the row
fixes the field. -/
theorem encode_commandOf (hr : r ∈ cmdRows) (h : rowMatches w r = true) :
    (commandOf r.op w).WellFormed ∧ encode (commandOf r.op w) = .command w := by
  have hw := packFields_of_rowMatches hr h
  simp only [cmdRows, List.mem_cons, List.not_mem_nil, or_false] at hr
  rcases hr with rfl | rfl | rfl | rfl | rfl | rfl
  -- INIT, START and STOP: neither operand
  case inl | inr.inl | inr.inr.inl =>
    rw [fField_of_rowMatches h rfl, dField_of_rowMatches h rfl] at hw
    exact ⟨rfl, congrArg Code.command hw⟩
  -- WRB: no F
  case inr.inr.inr.inl =>
    rw [fField_of_rowMatches h rfl] at hw
    exact ⟨rfl, congrArg Code.command hw⟩
  -- RDB: no D
  case inr.inr.inr.inr.inl =>
    rw [dField_of_rowMatches h rfl] at hw
    exact ⟨rfl, congrArg Code.command hw⟩
  -- WRA: the row fixes D[7]
  case inr.inr.inr.inr.inr =>
    have haddr : (dField w).getLsbD 7 = false := (getLsbD_dField w).trans (getLsbD_of_rowMatches h rfl)
    exact ⟨(wellFormed_wra _ _).mpr haddr, congrArg Code.command hw⟩

theorem encode_of_decodeMask {m : Byte} (h : decodeMask m = .ok i) : i.WellFormed ∧ encode i = .mask m := by
  unfold decodeMask at h
  split at h
  · next hm => injection h with h; subst h hm; exact ⟨rfl, rfl⟩
  · split at h
    · next hm => injection h with h; subst h hm; exact ⟨rfl, rfl⟩
    · cases h

/-- Settles O8: the word is of a row, and a row leaves open the operands only; the two masks are the two modes'. -/
theorem encodeDecode : Obligations.EncodeDecode := by
  intro c i h
  cases c with
  | command w =>
    obtain ⟨r, hr, hw, rfl⟩ := decodeCmd_ok h
    exact encode_commandOf hr hw
  | mask m => exact encode_of_decodeMask h

/-- A word decodes exactly when it is some well-formed instruction's word. -/
theorem decodeCmd_ok_iff_encode : decodeCmd w = .ok i ↔ i.WellFormed ∧ encode i = .command w := by
  refine ⟨encodeDecode (.command w) i, fun ⟨hi, he⟩ => ?_⟩
  have hd : decode (encode i) = .ok i := decodeEncode i hi
  rwa [he] at hd

/-! ### Reserved words (R65) -/

/-- The grounds on which R65 reserves a word. -/
def Reserved (w : CmdWord) : Prop :=
  (opcField w = 0#4 ∨ 7#4 ≤ opcField w) ∨ zField w ≠ 0#3 ∨
    (opcField w ∈ [1#4, 2#4, 3#4, 5#4] ∧ dField w ≠ 0x00#8) ∨
    (opcField w ∈ [1#4, 2#4, 3#4, 4#4] ∧ fField w = true) ∨
    (opcField w = 6#4 ∧ w.getLsbD 7 = true)

theorem not_reserved_of_encode (hi : i.WellFormed) (h : encode i = .command w) : ¬ Reserved w := by
  cases i
  case xferByte | xferBit => cases h
  case wra d isWrite =>
    cases h
    have haddr : (packFields 6#4 isWrite d).getLsbD 7 = false := by
      rw [← getLsbD_dField, dField_packFields, (wellFormed_wra d isWrite).mp hi]
    simp only [Reserved, haddr]
    simp
  all_goals
    cases h
    simp [Reserved]

theorem opcField_cases (w : CmdWord) :
    (opcField w = 0#4 ∨ 7#4 ≤ opcField w) ∨ opcField w = 1#4 ∨ opcField w = 2#4 ∨ opcField w = 3#4 ∨
      opcField w = 4#4 ∨ opcField w = 5#4 ∨ opcField w = 6#4 := by
  generalize opcField w = opc
  revert opc
  decide

/-- Where no ground of R65 holds, OPC names a command and the fields are its operands. -/
theorem exists_encode_of_not_reserved (h : ¬ Reserved w) : ∃ i, i.WellFormed ∧ encode i = .command w := by
  simp only [Reserved, not_or, not_and, not_not, Bool.not_eq_true] at h
  obtain ⟨hopc, hz, hd, hf, ha⟩ := h
  have hw := packFields_fields hz
  rcases opcField_cases w with h | h | h | h | h | h | h
  · exact absurd h (not_or.mpr hopc)
  all_goals rw [h] at hd hf ha hw
  -- INIT, START, STOP, WRB, RDB, WRA: what remains of `hd`, `hf` and `ha` fixes the fields without an operand
  · rw [hd (by decide), hf (by decide)] at hw
    exact ⟨.init, rfl, congrArg Code.command hw⟩
  · rw [hd (by decide), hf (by decide)] at hw
    exact ⟨.start, rfl, congrArg Code.command hw⟩
  · rw [hd (by decide), hf (by decide)] at hw
    exact ⟨.stop, rfl, congrArg Code.command hw⟩
  · rw [hf (by decide)] at hw
    exact ⟨.wrb (dField w), rfl, congrArg Code.command hw⟩
  · rw [hd (by decide)] at hw
    exact ⟨.rdb (fField w), rfl, congrArg Code.command hw⟩
  · exact ⟨.wra (dField w) (fField w), (wellFormed_wra _ _).mpr ((getLsbD_dField w).trans (ha rfl)),
      congrArg Code.command hw⟩

/-- A word is refused by the decoder exactly when it is no instruction's word, which is when it is reserved. -/
theorem decodeCmd_error_iff_reserved : (∃ e, decodeCmd w = .error e) ↔ Reserved w := by
  constructor
  · rintro ⟨e, he⟩
    by_contra hno
    obtain ⟨i, hi⟩ := exists_encode_of_not_reserved hno
    rw [decodeCmd_ok_iff_encode.mpr hi] at he
    cases he
  · intro hres
    cases h : decodeCmd w with
    | error e => exact ⟨e, rfl⟩
    | ok i =>
      obtain ⟨hi, he⟩ := decodeCmd_ok_iff_encode.mp h
      exact absurd hres (not_reserved_of_encode hi he)

/-- Settles O10: the decoder's refusals are R65's, and a step refuses what the decoder does. -/
theorem reservedWords : Obligations.ReservedWords := by
  refine ⟨fun w => decodeCmd_error_iff_reserved, fun s w rest e hidle hs he => ?_⟩
  simp only [step, fetch_presented hidle hs, decode, he]

/-! ### Assembler lines (R67) -/

theorem packFields_ofNat {b : Nat} (hb : b ≤ 255) (opc : BitVec 4) (f : Bool) :
    packFields opc f (BitVec.ofNat 8 b) = BitVec.ofNat 16 (4096 * opc.toNat + 256 * f.toNat + b) := by
  apply BitVec.eq_of_toNat_eq
  have := f.toNat_lt
  rw [toNat_packFields, BitVec.toNat_ofNat, BitVec.toNat_ofNat]
  omega

theorem wellFormed_wra_ofNat {a : Nat} (ha : a ≤ 127) (isWrite : Bool) :
    (Instr.wra (BitVec.ofNat 8 a) isWrite).WellFormed := by
  rw [wellFormed_wra, BitVec.getLsbD_ofNat, Nat.testBit_lt_two_pow (by omega), Bool.and_false]

theorem assemble_wrb {b : Nat} (hb : b ≤ 255) : assemble (.wrb b) = some (.wrb (BitVec.ofNat 8 b)) := if_pos hb

theorem assemble_wra {a : Nat} (ha : a ≤ 127) (isWrite : Bool) :
    assemble (.wra a isWrite) = some (.wra (BitVec.ofNat 8 a) isWrite) := if_pos ha

/-- Settles O12: a word is its fields' sum, and the two operands written as numbers are range-checked. -/
theorem assemblerWords : Obligations.AssemblerWords := by
  refine ⟨⟨_, rfl, rfl, rfl⟩, ⟨_, rfl, rfl, rfl⟩, ⟨_, rfl, rfl, rfl⟩, fun b hb => ?wrb, fun b hb => ?_,
    ⟨_, rfl, rfl, rfl⟩, ⟨_, rfl, rfl, rfl⟩, fun a isWrite ha => ?wra, fun a isWrite ha => ?_⟩
  case wrb => exact ⟨_, assemble_wrb hb, rfl, congrArg Code.command (packFields_ofNat hb _ _)⟩
  case wra =>
    refine ⟨_, assemble_wra ha isWrite, wellFormed_wra_ofNat ha isWrite, congrArg Code.command ?_⟩
    rw [packFields_ofNat (by omega)]
    cases isWrite <;> rfl
  all_goals exact if_neg (by omega)

/-- Settles O11: the words of V9, read by evaluation. -/
theorem sampleWords : Obligations.SampleWords :=
  ⟨rfl, rfl, rfl, rfl, rfl, rfl, rfl, rfl, rfl, rfl⟩

end Sys2Proof.Proofs
end

section
/-! SUPPORT. What a step fetches, and that it runs the instruction the fetched word decodes to (30_encoding.md R69;
42_transfer_primitive.md R117). -/

namespace Sys2Proof.Proofs

open Sys2Proof.Machine Sys2Proof.Safety

variable {s u : State} {c : Code} {i : Instr} {st : MicroStep} {m : Byte}

theorem step_of_fetch_word (hf : fetch s = .word c u) (hd : decode c = .ok i) : step s = exec i u := by
  simp only [step, hf, hd]

theorem step_of_fetch_move (h : fetch s = .move) : step s = .next (turn s) := by
  simp only [step, h]

/-! ### The places where a word is fetched -/

theorem step_of_presented {w : CmdWord} {rest : List Turn} (hidle : s.seq = .idle) (hs : s.sched = .host w :: rest)
    (hd : decodeCmd w = .ok i) : step s = exec i { s with sched := rest } :=
  step_of_fetch_word (fetch_presented hidle hs) hd

/-- At a call step the mask is fetched on the block's move, which is taken from the coming moves. -/
theorem fetch_call_block {rest : List Turn} (hrun : s.seq = .run st none) (hm : callMask st = some m)
    (hs : s.sched = .block :: rest) : fetch s = .word (.mask m) { s with sched := rest } := by
  simp [fetch, hrun, hm, hs]

/-- At a call step no move, or a move of the host, leaves the move to the block (log entry 8). -/
theorem fetch_call_waiting (hrun : s.seq = .run st none) (hm : callMask st = some m)
    (hs : s.sched = [] ∨ (∃ w rest, s.sched = .host w :: rest) ∨ ∃ rest, s.sched = .hostRead :: rest) :
    fetch s = .word (.mask m) s := by
  rcases hs with hs | ⟨w, rest, hs⟩ | ⟨rest, hs⟩ <;> simp [fetch, hrun, hm, hs]

/-! ### Words placed by `State.withFetchWord` (log entry 6) -/

theorem decodeCmd_of_decodeTableWord {w : Nat} (h : decodeTableWord 16 w = some i) :
    decodeCmd (BitVec.ofNat 16 w) = .ok i := by
  unfold decodeTableWord at h
  split at h
  · cases hd : decodeCmd (BitVec.ofNat 16 w) with
    | ok j => rw [hd] at h; injection h with h; rw [h]
    | error e => rw [hd] at h; cases h
  · simp at h

/-- A mask is placed at a step that calls with it, with the block's move first. -/
theorem step_withFetchWord_mask (hsite : callSite m = some st) (hm : callMask st = some m)
    (hd : decodeMask m = .ok i) (s : State) :
    step (s.withFetchWord 8 m.toNat) = exec i { s with seq := .run st none } := by
  have hplace : s.withFetchWord 8 m.toNat = { s with seq := .run st none, sched := .block :: s.sched } := by
    simp [State.withFetchWord, placeWord, hsite]
  rw [hplace]
  exact step_of_fetch_word (fetch_call_block rfl hm rfl) hd

/-- Settles O13: each clause is one of the places where `fetch` finds a word, or none of them. -/
theorem stepRunsDecoded : Obligations.StepRunsDecoded := by
  refine ⟨fun s w rest i => step_of_presented, fun s st m i hrun hm hd => ?call, fun s => step_of_fetch_move,
    fun s w i hw => ?table, ?byte, ?bit⟩
  case call =>
    have hwaiting := fun hs => step_of_fetch_word (fetch_call_waiting hrun hm hs) hd
    exact ⟨fun rest hs => step_of_fetch_word (fetch_call_block hrun hm hs) hd, fun hs => hwaiting (.inl hs),
      fun w rest hs => hwaiting (.inr (.inl ⟨w, rest, hs⟩)), fun rest hs => hwaiting (.inr (.inr ⟨rest, hs⟩))⟩
  case table => exact step_of_presented (s := s.withFetchWord 16 w) rfl rfl (decodeCmd_of_decodeTableWord hw)
  case byte => exact step_withFetchWord_mask (m := Config.xmaskByte) rfl rfl rfl
  case bit => exact step_withFetchWord_mask (m := Config.xmaskBit) rfl rfl rfl

end Sys2Proof.Proofs
end

section
/-! SUPPORT. OPD.F and WRB: a run of WRB does not read the flag, so that WRA, once it has composed its byte, goes on as
WRB of that byte (30_encoding.md R68; 44_byte_operations.md R137). -/

namespace Sys2Proof.Proofs

open Sys2Proof.Machine Sys2Proof.Safety

variable {s : State} {op : MicroOp} {st : MicroStep} {x : Option XferStep}

/-- `s` with OPD.F = 0. -/
def clearFlag (s : State) : State := { s with opdF := false }

/-! ### The moves without the flag -/

theorem settleShift_clearFlag (s : State) : settleShift (clearFlag s) = clearFlag (settleShift s) := by
  have hedge : risingEdge (clearFlag s) = risingEdge s := rfl
  unfold settleShift
  rw [hedge]
  split <;> rfl

theorem settleLatch_clearFlag (s : State) : settleLatch (clearFlag s) = clearFlag (settleLatch s) := by
  have hline : sclLine (clearFlag s) = sclLine s := rfl
  have hen : (clearFlag s).en = s.en := rfl
  unfold settleLatch
  rw [hline, hen]
  split <;> rfl

theorem finish_clearFlag (b a : State) : finish (clearFlag b) (clearFlag a) = clearFlag (finish b a) := by
  have hclock : ∀ s, settleClock (clearFlag s) = clearFlag (settleClock s) := fun _ => rfl
  have hobserve : ∀ a, observe (clearFlag b) (clearFlag a) = clearFlag (observe b a) := fun _ => rfl
  rw [finish, settle, settleShift_clearFlag, hclock, settleLatch_clearFlag, hobserve, finish, settle]

theorem countStrobe_clearFlag (s : State) : countStrobe (clearFlag s) = clearFlag (countStrobe s) := by
  have hen : (clearFlag s).en = s.en := rfl
  unfold countStrobe
  rw [hen]
  split <;> rfl

/-- Only RD4 and WA0 read the flag (R136, R137). -/
theorem applyOp_clearFlag (hack : op ≠ .writeDrAck) (hcompose : op ≠ .composeAddress) (s : State) :
    applyOp op (clearFlag s) = clearFlag (applyOp op s) := by
  cases op
  case writeDrAck => exact absurd rfl hack
  case composeAddress => exact absurd rfl hcompose
  case strobe => exact countStrobe_clearFlag { s with sclPort := !s.sclPort }
  all_goals rfl

/-- The micro-steps at which the flag is read. -/
theorem opAt_reads_site (h : opAt st x = .writeDrAck ∨ opAt st x = .composeAddress) : st = .rd4 ∨ st = .wa0 := by
  rcases h with h | h
  · cases x with
    | none => revert h; cases st <;> simp [opAt, commandOp]
    | some x => revert h; cases x <;> simp [opAt, xferOp]
  · exact .inr (opAt_opdD_site h).2

theorem microStep_clearFlag (hst : opOf st = .wrb) (x : Option XferStep) (s : State) :
    microStep st x (clearFlag s) = clearFlag (microStep st x s) := by
  have hsite : ¬ (opAt st x = .writeDrAck ∨ opAt st x = .composeAddress) := fun h => by
    rcases opAt_reads_site h with rfl | rfl <;> cases hst
  obtain ⟨hack, hcompose⟩ := not_or.mp hsite
  have hseq : nextSeq st x (clearFlag s) = nextSeq st x s := rfl
  rw [microStep, applyOp_clearFlag hack hcompose, hseq]
  exact finish_clearFlag s { applyOp (opAt st x) s with seq := nextSeq st x s }

/-! ### Turns of WRB -/

/-- The sequencer is in WRB, or WRB has ended. -/
def InWrb (s : State) : Prop := s.seq = .idle ∨ seqOp s.seq = .wrb

theorem seqOp_nextSeq_of_wrb (hst : opOf st = .wrb) (x : Option XferStep) (s : State) :
    nextSeq st x s = .idle ∨ seqOp (nextSeq st x s) = .wrb := by
  have hafter : afterStep st = .idle ∨ seqOp (afterStep st) = .wrb := by
    revert hst; cases st <;> simp [opOf, afterStep, seqOp]
  cases x with
  | none =>
    rcases nextSeq_none_cases st s with h | ⟨-, h⟩ | ⟨m, -, h⟩ <;> rw [h]
    exacts [hafter, .inr hst, .inr hst]
  | some a =>
    rcases nextSeq_some_cases st a s with h | ⟨b, h⟩ <;> rw [h]
    exacts [hafter, .inr hst]

theorem kept_inWrb : KeptByMoves InWrb where
  block v h := by
    cases hs : v.seq with
    | idle => rwa [blockStep_idle hs]
    | run st x =>
      have hst : opOf st = .wrb := by simpa [InWrb, hs, seqOp] using h
      rw [blockStep_run hs, InWrb, microStep_seq]
      exact seqOp_nextSeq_of_wrb hst x v
  peer a b v h := by rwa [InWrb, peerStep_seq]
  sched _ _ h := h

theorem inWrb_turn (h : InWrb s) : InWrb (turn s) :=
  kept_inWrb.turn (fun _ _ => .inl (resetBlock_seq _)) h

theorem blockStep_clearFlag (h : InWrb s) : blockStep (clearFlag s) = clearFlag (blockStep s) := by
  cases hs : s.seq with
  | idle => rw [blockStep_idle hs, blockStep_idle (s := clearFlag s) hs]
  | run st x =>
    have hst : opOf st = .wrb := by simpa [InWrb, hs, seqOp] using h
    rw [blockStep_run hs, blockStep_run (s := clearFlag s) hs, microStep_clearFlag hst]

theorem peerStep_clearFlag (a b : Bool) (s : State) : peerStep a b (clearFlag s) = clearFlag (peerStep a b s) :=
  finish_clearFlag s { s with peerSdaLow := a, peerSclLow := b }

theorem resetBlock_clearFlag (s : State) : resetBlock (clearFlag s) = clearFlag (resetBlock s) :=
  finish_clearFlag s { State.reset with
    peerSdaLow := s.peerSdaLow
    peerSclLow := s.peerSclLow
    sched := s.sched
    obsPending := s.obsPending
    obsTrace := s.obsTrace }

theorem turn_clearFlag (h : InWrb s) : turn (clearFlag s) = clearFlag (turn s) := by
  have hblock : ∀ rest, blockStep { clearFlag s with sched := rest } = clearFlag (blockStep { s with sched := rest }) :=
    fun rest => blockStep_clearFlag (kept_inWrb.sched rest s h)
  have hsched : (clearFlag s).sched = s.sched := rfl
  have hbusy : busy (clearFlag s) = busy s := rfl
  unfold turn
  rw [hsched, hbusy]
  split
  · exact blockStep_clearFlag h
  · exact hblock _
  · exact peerStep_clearFlag _ _ { s with sched := _ }
  · exact resetBlock_clearFlag { s with sched := _ }
  · split
    · exact blockStep_clearFlag h
    · rfl
  · exact blockStep_clearFlag h

/-- What commutes with every turn commutes with a run, when it leaves the test of the run alone. -/
theorem runWhile_comm {P : State → Prop} {f : State → State} {g : State → Bool} (hkeep : ∀ s, P s → P (turn s))
    (hturn : ∀ s, P s → turn (f s) = f (turn s)) (hg : ∀ s, g (f s) = g s) (n : Nat) (h : P s) :
    runWhile g n (f s) = f (runWhile g n s) := by
  induction n generalizing s with
  | zero => rfl
  | succ n ih =>
    cases hs : g s
    · rw [runWhile_stop hs, runWhile_stop ((hg s).trans hs)]
    · rw [runWhile_go hs, runWhile_go ((hg s).trans hs), hturn s h, ih (hkeep s h)]

/-- The turns of WRB are the same whatever OPD.F holds. -/
theorem runCommand_clearFlag (h : InWrb s) : runCommand (clearFlag s) = clearFlag (runCommand s) :=
  runWhile_comm (P := InWrb) (f := clearFlag) (fun _ => inWrb_turn) (fun _ => turn_clearFlag) (fun _ => rfl) _ h

theorem clearFlag_runCommand_wrb (f : Bool) (d : Byte) (s : State) :
    clearFlag (runCommand (accept .wb0 f d s)) = runCommand (accept .wb0 false d s) :=
  (runCommand_clearFlag (s := accept .wb0 f d s) (.inr rfl)).symm

/-! ### WRA as WRB -/

/-- WA0 composes the byte and nothing else: from a settled state it moves no line (R137). -/
theorem blockStep_wa0 (h : Settled s) (d : Byte) (isWrite : Bool) :
    blockStep (accept .wa0 isWrite d s) = accept .wb0 isWrite (composeAddress d isWrite) s :=
  finish_of_same (b := accept .wa0 isWrite d s) (a := accept .wb0 isWrite (composeAddress d isWrite) s) h rfl rfl

/-- With a move of the block for WA0, WRA's turns are those of WRB of the composed byte. -/
theorem runCommand_wra (h : Settled s) (d : Byte) (isWrite : Bool) :
    runCommand (accept .wa0 isWrite d { s with sched := .block :: s.sched }) =
      runCommand (accept .wb0 isWrite (composeAddress d isWrite) s) := by
  have hturn : turn (accept .wa0 isWrite d { s with sched := .block :: s.sched }) =
      accept .wb0 isWrite (composeAddress d isWrite) s :=
    (turn_block rfl).trans (blockStep_wa0 h d isWrite)
  have hbudget : turnBudget (accept .wa0 isWrite d { s with sched := .block :: s.sched }) = turnBudget s + 1 := by
    simp [turnBudget]
  rw [runCommand, hbudget, runWhile_go rfl, hturn]
  rfl

theorem busy_of_ne_idle (h : s.seq ≠ .idle) : busy s = true := by
  unfold busy
  split
  · next hs => exact absurd hs h
  · rfl

/-- Settles O50: after WA0 the two commands differ in OPD.F only, which WRB does not read. -/
theorem wraIsWrbOfComposedByte : Obligations.WraIsWrbOfComposedByte := by
  intro s d isWrite h
  change mapNext clearFlag (issue .wa0 isWrite d { s with sched := .block :: s.sched }) =
    mapNext clearFlag (issue .wb0 false (composeAddress d isWrite) s)
  by_cases hs : s.seq = .idle
  · rw [issue_idle hs, issue_idle (s := { s with sched := .block :: s.sched }) hs, runCommand_wra h]
    simp only [mapNext, clearFlag_runCommand_wrb]
  · have hb : busy s = true := busy_of_ne_idle hs
    rw [issue_busy hb, issue_busy (s := { s with sched := .block :: s.sched }) hb]

end Sys2Proof.Proofs
end

section
/-! SUPPORT. The wait for the clock line, and where each command blocks while the peer holds it
(40_line_control.md R87; 42_transfer_primitive.md R114). -/

namespace Sys2Proof.Proofs

open Sys2Proof.Machine Sys2Proof.Safety

variable {s : State} {st first : MicroStep} {x y : Option XferStep} {p : Sequencer} {n : Nat}

/-! ### One wait -/

theorem nextSeq_wait (hop : opAt st x = .waitSclHigh) (s : State) :
    nextSeq st x s = if sclLine s then follow st x else .run st x := by
  simp only [nextSeq, hop]

/-- From a settled state a wait moves SEQ and nothing else. -/
theorem microStep_wait (h : Settled s) (hop : opAt st x = .waitSclHigh) :
    microStep st x s = { s with seq := nextSeq st x s } := by
  rw [microStep, hop]
  exact finish_of_same (b := s) (a := { s with seq := nextSeq st x s }) h rfl rfl

/-- Settles O26: a wait writes no register, and SEQ goes on or stays by the level of the line. -/
theorem waitForClock : Obligations.WaitForClock := by
  intro s st x hs hop h
  rw [blockStep_run hs, microStep_wait h hop, nextSeq_wait hop]
  refine ⟨fun hhigh => ?_, fun hlow => ?_⟩
  · rw [if_pos hhigh]
  · rw [hlow, if_neg Bool.false_ne_true, ← hs]

/-! ### Runs under a held clock -/

/-- The peer holds the clock, and no agent but the block has a move to come. -/
structure ClockHeld (s : State) : Prop where
  sched : s.sched = []
  scl : s.peerSclLow = true

theorem sclLine_of_clockHeld (h : ClockHeld s) : sclLine s = false := by simp [sclLine, h.scl]

@[simp] theorem blockStep_peerSclLow (s : State) : (blockStep s).peerSclLow = s.peerSclLow := by
  unfold blockStep; split <;> simp

theorem clockHeld_turn (h : ClockHeld s) : ClockHeld (turn s) := by
  rw [turn_nil h.sched]
  exact ⟨(blockStep_sched s).trans h.sched, (blockStep_peerSclLow s).trans h.scl⟩

theorem turn_seq_of_clockHeld (h : ClockHeld s) (hs : s.seq = .run st x) : (turn s).seq = nextSeq st x s := by
  rw [turn_nil h.sched, blockStep_run hs, microStep_seq]

/-- Under a held clock a command at `p` blocks at the wait `st`, `x` after at most `n` turns, and stays there. -/
def BlocksWithin (n : Nat) (p : Sequencer) (st : MicroStep) (x : Option XferStep) : Prop :=
  ∀ s, ClockHeld s → s.seq = p → ∀ m, n ≤ m →
    (runWhile busy m s).seq = .run st x ∧ Blocked (runWhile busy m s)

theorem blocksWithin_wait (hop : opAt st x = .waitSclHigh) : BlocksWithin 0 (.run st x) st x := by
  intro s h hs m _
  have hstay : ∀ v, ClockHeld v ∧ v.seq = .run st x → busy v = true →
      ClockHeld (turn v) ∧ (turn v).seq = .run st x := by
    rintro v ⟨hv, hseq⟩ -
    refine ⟨clockHeld_turn hv, ?_⟩
    rw [turn_seq_of_clockHeld hv hseq, nextSeq_wait hop, sclLine_of_clockHeld hv, if_neg Bool.false_ne_true]
  obtain ⟨hheld, hseq⟩ := runWhile_keeps (fun v => ClockHeld v ∧ v.seq = .run st x) hstay m ⟨h, hs⟩
  exact ⟨hseq, sclLine_of_clockHeld hheld, st, x, hseq, hop⟩

/-- One micro-step earlier, where the step goes on to `p` whatever the registers hold. -/
theorem BlocksWithin.step {st' : MicroStep} (hb : BlocksWithin n p st x) (hnext : ∀ s, nextSeq st' y s = p) :
    BlocksWithin (n + 1) (.run st' y) st x := by
  intro s h hs m hm
  obtain ⟨k, rfl⟩ := Nat.exists_eq_add_of_le' hm
  rw [← Nat.add_assoc, runWhile_go (by rw [busy, hs])]
  exact hb _ (clockHeld_turn h) ((turn_seq_of_clockHeld h hs).trans (hnext s)) _ (Nat.le_add_left n k)

/-- A call of the Transfer Primitive blocks at XF4 of its first pulse (R114). -/
theorem blocksWithin_xf4 {m : Byte} (hop : commandOp st = .callXfer m) :
    BlocksWithin 5 (.run st none) st (some .xf4) :=
  have hcall : ∀ s, nextSeq st none s = .run st (some .xf0) := fun s => by simp only [nextSeq, opAt, hop]
  have hxf0 : BlocksWithin 4 (.run st (some .xf0)) st (some .xf4) :=
    blocksWithin_wait (st := st) (x := some .xf4) rfl
      |>.step (y := some .xf3) (fun _ => rfl)
      |>.step (y := some .xf2) (fun _ => rfl)
      |>.step (y := some .xf1) (fun _ => rfl)
      |>.step (y := some .xf0) (fun _ => rfl)
  hxf0.step hcall

theorem blocksWithin_st2 : BlocksWithin 2 (.run .st0 none) .st2 none :=
  blocksWithin_wait rfl |>.step (st' := .st1) (fun _ => rfl) |>.step (fun _ => rfl)

theorem blocksWithin_sp2 : BlocksWithin 2 (.run .sp0 none) .sp2 none :=
  blocksWithin_wait rfl |>.step (st' := .sp1) (fun _ => rfl) |>.step (fun _ => rfl)

theorem blocksWithin_wb0 : BlocksWithin 6 (.run .wb0 none) .wb1 (some .xf4) :=
  blocksWithin_xf4 (st := .wb1) rfl |>.step (fun _ => rfl)

theorem blocksWithin_wa0 : BlocksWithin 7 (.run .wa0 none) .wb1 (some .xf4) :=
  blocksWithin_wb0.step (fun _ => rfl)

theorem blocksWithin_rd0 : BlocksWithin 6 (.run .rd0 none) .rd1 (some .xf4) :=
  blocksWithin_xf4 (st := .rd1) rfl |>.step (fun _ => rfl)

/-- A host command whose first micro-step leads to a wait is given turns enough to block there. -/
theorem issue_blocks (hidle : s.seq = .idle) (h : ClockHeld s) (hb : BlocksWithin n (.run first none) st x)
    (hn : n ≤ 128) (f : Bool) (d : Byte) :
    ∃ t, issue first f d s = .next t ∧ t.seq = .run st x ∧ Blocked t :=
  ⟨_, issue_idle hidle first f d, hb (accept first f d s) ⟨h.sched, h.scl⟩ rfl _ (Nat.le_add_left_of_le hn)⟩

/-- Settles O29: each command's micro-program leads to its first wait whatever the registers hold, and the held clock
keeps it there. -/
theorem heldClockBlocks : Obligations.HeldClockBlocks := by
  intro s hidle hsched hscl
  have h : ClockHeld s := ⟨hsched, hscl⟩
  exact ⟨issue_blocks hidle h blocksWithin_st2 (by decide) false 0x00#8,
    issue_blocks hidle h blocksWithin_sp2 (by decide) false 0x00#8,
    fun d => issue_blocks hidle h blocksWithin_wb0 (by decide) false d,
    fun d f => issue_blocks hidle h blocksWithin_wa0 (by decide) f d,
    fun f => issue_blocks hidle h blocksWithin_rd0 (by decide) f 0x00#8⟩

end Sys2Proof.Proofs
end

section
/-! SUPPORT. The strobe: the toggle of SCL_PORT and the count (40_line_control.md R86; 41_shift_unit.md R98, R99). -/

namespace Sys2Proof.Proofs

open Sys2Proof.Machine Sys2Proof.Safety

variable {s : State}

/-! ### One counted strobe -/

theorem countStrobe_of_disabled (he : s.en = false) : countStrobe s = s := by
  rw [countStrobe, he, if_neg Bool.false_ne_true]

/-- The wrap (R99). -/
theorem countStrobe_of_wrap (he : s.en = true) (hc : s.cnt = 15#4) :
    countStrobe s = { s with cnt := 0#4, cf := true } := by
  simp [countStrobe, he, hc, nextCount, nextFlag]

theorem countStrobe_of_no_wrap (he : s.en = true) (hc : s.cnt ≠ 15#4) :
    countStrobe s = { s with cnt := s.cnt + 1#4 } := by
  simp [countStrobe, he, hc, nextCount, nextFlag]

/-! ### The strobes of the primitive -/

theorem xferOp_eq_strobe_iff (x : XferStep) : xferOp x = .strobe ↔ x ∈ [.xf3, .xf6] := by
  cases x <;> simp [xferOp]

/-- A block step at a strobe leaves in SCL_PORT, CNT and CF what the strobe wrote. -/
theorem blockStep_strobe {st : MicroStep} {x : XferStep} (hs : s.seq = .run st (some x)) (hx : x ∈ [.xf3, .xf6]) :
    (blockStep s).sclPort = (!s.sclPort) ∧ (blockStep s).cnt = (countStrobe s).cnt ∧
      (blockStep s).cf = (countStrobe s).cf := by
  have hop : opAt st (some x) = .strobe := (xferOp_eq_strobe_iff x).mpr hx
  obtain ⟨-, -, -, hsclPort, hcf, hcnt, -⟩ := microStep_registers s st (some x)
  rw [blockStep_run hs, hsclPort, hcnt, hcf, hop]
  simp [applyOp]

/-- Settles O21: the toggle, and the count by its three cases. -/
theorem strobeStep : Obligations.StrobeStep := by
  intro s st x hs hx
  obtain ⟨hport, hcnt, hcf⟩ := blockStep_strobe hs hx
  rw [hcnt, hcf]
  refine ⟨hport, fun he hc => ?wrap, fun he hc => ?count, fun he => ?disabled⟩
  case wrap => rw [countStrobe_of_wrap he hc]; exact ⟨rfl, rfl⟩
  case count => rw [countStrobe_of_no_wrap he hc]; exact ⟨rfl, rfl⟩
  case disabled => rw [countStrobe_of_disabled he]; exact ⟨rfl, rfl⟩

end Sys2Proof.Proofs
end

section
/-! SUPPORT. The status register: what sets and clears CF, its two accesses, the strobe at which CF sets
(41_shift_unit.md R99 to R101, R104). -/

namespace Sys2Proof.Proofs

open Sys2Proof.Machine Sys2Proof.Safety

variable {s : State} {op : MicroOp} {st : MicroStep} {x : Option XferStep}

/-! ### CF over one step (R99) -/

/-- Only a strobe sets CF, by the wrap. -/
theorem applyOp_sets_cf_iff (h : s.cf = false) :
    (applyOp op s).cf = true ↔ op = .strobe ∧ s.en = true ∧ s.cnt = 15#4 := by
  cases op
  case strobe => simp [applyOp, nextFlag, h]
  case writeSr v => simp [applyOp, writtenFlag, h]
  case writeSrMask => simp [applyOp, writtenFlag, h]
  all_goals simp [applyOp, h]

/-- Only a write to SR clears CF, by a 1 in bit 6. -/
theorem applyOp_clears_cf_iff (h : s.cf = true) :
    (applyOp op s).cf = false ↔
      (∃ v, op = .writeSr v ∧ v.getLsbD 6 = true) ∨ (op = .writeSrMask ∧ s.xmask.getLsbD 6 = true) := by
  cases op
  case strobe => simp [applyOp, nextFlag, h]
  case writeSr v => simp [applyOp, writtenFlag, h]
  case writeSrMask => simp [applyOp, writtenFlag, h]
  all_goals simp [applyOp, h]

theorem opAt_eq_strobe_iff : opAt st x = .strobe ↔ x ∈ [some .xf3, some .xf6] := by
  cases x with
  | none => cases st <;> simp [opAt, commandOp]
  | some x => simp [opAt, xferOp_eq_strobe_iff]

theorem opAt_eq_writeSr_iff {v : Byte} :
    opAt st x = .writeSr v ↔ (x = none ∧ st = .in6) ∧ v = Config.initStatus := by
  cases x with
  | none => cases st <;> simp [opAt, commandOp, eq_comm]
  | some x => cases x <;> simp [opAt, xferOp]

theorem opAt_eq_writeSrMask_iff : opAt st x = .writeSrMask ↔ x = some .xf1 := by
  cases x with
  | none => cases st <;> simp [opAt, commandOp]
  | some x => cases x <;> simp [opAt, xferOp]

/-- Of the fixed values a micro-program writes to SR, INIT's has bit 6 set (R120). -/
theorem opAt_writeSr_clearing_iff :
    (∃ v, opAt st x = .writeSr v ∧ v.getLsbD 6 = true) ↔ x = none ∧ st = .in6 :=
  ⟨fun ⟨_, hop, _⟩ => (opAt_eq_writeSr_iff.mp hop).1,
    fun hsite => ⟨_, opAt_eq_writeSr_iff.mpr ⟨hsite, rfl⟩, rfl⟩⟩

/-- Settles O22: the setter and the two clearers of CF, each at its sites in the tables. -/
theorem flagOnlyByWrap : Obligations.FlagOnlyByWrap := by
  intro s st x hs
  obtain ⟨-, -, -, -, hcf, -⟩ := microStep_registers s st x
  rw [blockStep_run hs, hcf]
  refine ⟨fun h => ?sets, fun h => ?clears, fun a b => by simp [peerStep]⟩
  case sets => rw [applyOp_sets_cf_iff h, opAt_eq_strobe_iff]
  case clears => rw [applyOp_clears_cf_iff h, opAt_writeSr_clearing_iff, opAt_eq_writeSrMask_iff]

/-! ### The accesses to SR (R100, R101) -/

theorem writtenFlag_eq_ite (cf : Bool) (v : Byte) :
    writtenFlag cf v = if v.getLsbD 6 = true then false else cf := by
  unfold writtenFlag
  cases v.getLsbD 6 <;> simp

/-- The bits of a read above the counter: CF between zeros. -/
theorem readStatus_getLsbD_add_four (s : State) (k : Nat) :
    (readStatus s).getLsbD (k + 4) = (0#1 ++ BitVec.ofBool s.cf ++ 0#2).getLsbD k := by
  refine BitVec.getLsbD_append.trans ?_
  rw [if_neg (by omega), Nat.add_sub_cancel]

/-- Settles O23: the write by its two fields, the read by its concatenation. -/
theorem statusAccess : Obligations.StatusAccess := by
  intro s v
  have hbit := readStatus_getLsbD_add_four s
  refine ⟨?write, (hbit 3).trans ?_, (hbit 2).trans ?_, (hbit 1).trans ?_, (hbit 0).trans ?_, ?count⟩
  case write => rw [writeStatus, writtenFlag_eq_ite]
  case count => exact BitVec.extractLsb'_append_eq_right
  all_goals cases s.cf <;> rfl

/-! ### Strobes one after another (R104) -/

theorem strobes_succ_apply (n : Nat) (s : State) : strobes (n + 1) s = applyOp .strobe (strobes n s) := by
  induction n generalizing s with
  | zero => rfl
  | succ n ih => exact ih _

theorem strobe_of_wrap (he : s.en = true) (hc : s.cnt = 15#4) :
    applyOp .strobe s = { s with sclPort := !s.sclPort, cnt := 0#4, cf := true } :=
  countStrobe_of_wrap (s := { s with sclPort := !s.sclPort }) he hc

theorem strobe_of_no_wrap (he : s.en = true) (hc : s.cnt ≠ 15#4) :
    applyOp .strobe s = { s with sclPort := !s.sclPort, cnt := s.cnt + 1#4 } :=
  countStrobe_of_no_wrap (s := { s with sclPort := !s.sclPort }) he hc

/-- Strobes short of the wrap count up and leave CF. -/
theorem strobes_before_wrap (he : s.en = true) {k : Nat} (hk : s.cnt.toNat + k < 16) :
    (strobes k s).en = true ∧ (strobes k s).cf = s.cf ∧ (strobes k s).cnt.toNat = s.cnt.toNat + k := by
  induction k with
  | zero => exact ⟨he, rfl, rfl⟩
  | succ k ih =>
    obtain ⟨hen, hcf, hcnt⟩ := ih (by omega)
    have hne : (strobes k s).cnt ≠ 15#4 := by bv_omega
    rw [strobes_succ_apply, strobe_of_no_wrap hen hne]
    exact ⟨hen, hcf, by bv_omega⟩

/-- The strobe that uses up the count to 16 is the wrap. -/
theorem strobes_at_wrap (he : s.en = true) :
    (strobes (16 - s.cnt.toNat) s).cf = true ∧ (strobes (16 - s.cnt.toNat) s).cnt = 0#4 := by
  have hlt := s.cnt.isLt
  obtain ⟨hen, -, hcnt⟩ := strobes_before_wrap he (k := 15 - s.cnt.toNat) (by omega)
  have hlast : (strobes (15 - s.cnt.toNat) s).cnt = 15#4 := by
    apply BitVec.eq_of_toNat_eq
    rw [hcnt, BitVec.toNat_ofNat]
    omega
  have hsplit : 16 - s.cnt.toNat = (15 - s.cnt.toNat) + 1 := by omega
  rw [hsplit, strobes_succ_apply, strobe_of_wrap hen hlast]
  exact ⟨rfl, rfl⟩

/-- Settles O24: the write clears CF and loads the count from which the strobes go up to the wrap. -/
theorem edgeCountLaw : Obligations.EdgeCountLaw := by
  intro s v hv
  have hcf : (writeStatus v s).cf = false := by rw [writeStatus_cf, writtenFlag_eq_ite, if_pos hv]
  refine ⟨hcf, fun he => ⟨fun k hk => ?before, strobes_at_wrap (s := writeStatus v s) he⟩⟩
  case before =>
    have hshort : (writeStatus v s).cnt.toNat + k < 16 := by rw [writeStatus_cnt]; omega
    obtain ⟨-, hkept, -⟩ := strobes_before_wrap (s := writeStatus v s) he hshort
    exact hkept.trans hcf

end Sys2Proof.Proofs
end

section
/-! SUPPORT. The shift unit on the data line: its pull is still while the clock line is high, and the address byte it
sends (41_shift_unit.md R97, R107). -/

namespace Sys2Proof.Proofs

open Sys2Proof.Machine Sys2Proof.Safety

variable {s t a b : State}

/-! ### The pull on SDA while the clock line is high (R97) -/

/-- With the clock line high settle() leaves the pull: OL is kept, or the disabled unit does not pull. -/
theorem masterSdaLow_settle_of_high (hh : sclLine s = true) : masterSdaLow (settle s) = masterSdaLow s := by
  cases he : s.en with
  | false => simp [masterSdaLow, he]
  | true => simp only [masterSdaLow, settle_sdaDir, settle_sdaPort, settle_en, settle_ol_of_high he hh]

theorem masterSdaLow_of_sameLines (h : SameLines s t) (hol : t.ol = s.ol) : masterSdaLow t = masterSdaLow s := by
  rw [masterSdaLow, h.en, h.sdaDir, h.sdaPort, hol, masterSdaLow]

/-- Over a step from high clock to high clock without a change of the pulls on SDA the observer sees nothing. -/
theorem finish_eq_settle_of_high (hb : sclLine b = true) (ha : sclLine a = true)
    (hpull : masterSdaLow a = masterSdaLow b) (hpeer : a.peerSdaLow = b.peerSdaLow) : finish b a = settle a := by
  refine observe_of_same (by rw [sclLine_settle, hb, ha]) ?_
  rw [sdaLine, sdaLine, masterSdaLow_settle_of_high ha, settle_peerSdaLow, hpull, hpeer]

/-- Settles O25: the primitive's micro-operations write neither OL nor a register of the pull, and settle() keeps it. -/
theorem shiftUnitQuietWhileHigh : Obligations.ShiftUnitQuietWhileHigh := by
  intro s st x hs hbefore hafter
  rw [blockStep_run hs, microStep] at hafter ⊢
  rw [sclLine_finish] at hafter
  have hpull : masterSdaLow (applyOp (xferOp x) s) = masterSdaLow s :=
    masterSdaLow_of_sameLines (sameLines_xferOp x s) (applyOp_ol s _)
  rw [finish_eq_settle_of_high hbefore hafter hpull (applyOp_peerSdaLow s _)]
  exact ⟨(masterSdaLow_settle_of_high hafter).trans hpull, by simp⟩

/-! ### The address byte (R107 (c)) -/

theorem toNat_lt_of_getLsbD_7 {d : Byte} (h : d.getLsbD 7 = false) : d.toNat < 128 := by
  have hmsb : d.msb = false := h
  have := BitVec.msb_eq_false_iff_two_mul_lt.mp hmsb
  omega

/-- Settles O51: the address above the read bit. -/
theorem addressByte : Obligations.AddressByte := by
  intro d isWrite hd
  have hlow : (d.extractLsb' 0 7).toNat = d.toNat := by
    rw [BitVec.extractLsb'_toNat, Nat.shiftRight_zero, Nat.mod_eq_of_lt (toNat_lt_of_getLsbD_7 hd)]
  have happend : (composeAddress d isWrite).toNat =
      2 ^ 1 * (d.extractLsb' 0 7).toNat + (BitVec.ofBool (!isWrite)).toNat := toNat_append_eq_add _ _
  rw [happend, hlow]
  cases isWrite <;> rfl

end Sys2Proof.Proofs
end

section
/-! SUPPORT. Who may call the Transfer Primitive, and what it leaves alone (42_transfer_primitive.md R110, R113,
R117). -/

namespace Sys2Proof.Proofs

open Sys2Proof.Machine Sys2Proof.Safety

variable {s t u : State} {st : MicroStep} {x : XferStep}

/-! ### The caller -/

theorem transfer_idle (h : s.seq = .idle) (m : Byte) : transfer m s = .refused .noCaller := by simp [transfer, h]

theorem transfer_nested (h : s.seq = .run st (some x)) (m : Byte) : transfer m s = .refused .nestedCall := by
  simp [transfer, h]

/-- Settles O16: both modes are a call with their mask, refused by where SEQ stands. -/
theorem primitiveNeedsCaller : Obligations.PrimitiveNeedsCaller := fun _ =>
  ⟨fun h => ⟨transfer_idle h _, transfer_idle h _⟩, fun _ _ h => ⟨transfer_nested h _, transfer_nested h _⟩⟩

/-! ### The frame -/

/-- The registers R113 says the primitive leaves alone are in `t` as in `s`. -/
structure XferFrame (s t : State) : Prop where
  lines : SameLines s t
  opdF : t.opdF = s.opdF
  opdD : t.opdD = s.opdD
  rbuf : t.rbuf = s.rbuf
  res : t.res = s.res

theorem XferFrame.trans (h : XferFrame s t) (h' : XferFrame t u) : XferFrame s u where
  lines := h.lines.trans h'.lines
  opdF := h'.opdF.trans h.opdF
  opdD := h'.opdD.trans h.opdD
  rbuf := h'.rbuf.trans h.rbuf
  res := h'.res.trans h.res

theorem xferFrame_finish (b s : State) : XferFrame s (finish b s) where
  lines := by constructor <;> simp
  opdF := by simp
  opdD := by simp
  rbuf := by simp
  res := by simp

theorem xferFrame_sched (moves : List Turn) (s : State) : XferFrame s { s with sched := moves } :=
  ⟨⟨rfl, rfl, rfl, rfl⟩, rfl, rfl, rfl, rfl⟩

theorem xferFrame_callXfer (m : Byte) (st : MicroStep) (s : State) : XferFrame s (callXfer m st s) :=
  have hcall : XferFrame s { s with xmask := m, seq := .run st (some .xf0) } :=
    ⟨⟨rfl, rfl, rfl, rfl⟩, rfl, rfl, rfl, rfl⟩
  hcall.trans (xferFrame_finish s _)

theorem xferFrame_peerStep (a b : Bool) (s : State) : XferFrame s (peerStep a b s) :=
  have hpeer : XferFrame s { s with peerSdaLow := a, peerSclLow := b } := ⟨⟨rfl, rfl, rfl, rfl⟩, rfl, rfl, rfl, rfl⟩
  hpeer.trans (xferFrame_finish s _)

/-- Of the other registers the primitive's table writes SCL_PORT, SR, DR and TMP only (R111). -/
theorem xferFrame_xferOp (x : XferStep) (s : State) : XferFrame s (applyOp (xferOp x) s) where
  lines := sameLines_xferOp x s
  opdF := applyOp_opdF s _
  opdD := by cases x <;> simp [xferOp, applyOp]
  rbuf := by cases x <;> simp [xferOp, applyOp]
  res := by cases x <;> simp [xferOp, applyOp]

theorem xferFrame_microStep (st : MicroStep) (x : XferStep) (s : State) :
    XferFrame s (microStep st (some x) s) := by
  obtain ⟨-, -, -, -, -, -, -, -, hopdF, hopdD, -, hrbuf, hres⟩ := microStep_registers s st (some x)
  exact (xferFrame_xferOp x s).trans ⟨sameLines_microStep st (some x) s, hopdF, hopdD, hrbuf, hres⟩

theorem inXfer_iff (s : State) : inXfer s = true ↔ ∃ st x, s.seq = .run st (some x) := by
  cases h : s.seq with
  | idle => simp [inXfer, h]
  | run st x => cases x <;> simp [inXfer, h]

theorem xferFrame_blockStep (hx : inXfer s = true) : XferFrame s (blockStep s) := by
  obtain ⟨st, x, hs⟩ := (inXfer_iff s).mp hx
  rw [blockStep_run hs]
  exact xferFrame_microStep st x s

/-- Inside the primitive every turn but a reset keeps the frame. -/
theorem xferFrame_turn (hx : inXfer s = true) (hn : noReset s.sched = true) : XferFrame s (turn s) := by
  rcases turn_cases s with e | ⟨rest, -, e⟩ | ⟨a, b, rest, -, e⟩ | ⟨rest, hs, -⟩ | ⟨rest, -, -, e⟩
  · rw [e]; exact xferFrame_blockStep hx
  · rw [e]; exact (xferFrame_sched rest s).trans (xferFrame_blockStep (s := { s with sched := rest }) hx)
  · rw [e]; exact (xferFrame_sched rest s).trans (xferFrame_peerStep a b _)
  · simp [hs, noReset] at hn
  · rw [e]; exact xferFrame_sched rest s

theorem xferFrame_runXfer (hn : noReset s.sched = true) : XferFrame s (runXfer s) := by
  have hstep : ∀ v, (XferFrame s v ∧ noReset v.sched = true) → inXfer v = true →
      XferFrame s (turn v) ∧ noReset (turn v).sched = true :=
    fun v ⟨hv, hnv⟩ hx => ⟨hv.trans (xferFrame_turn hx hnv), noReset_turn hnv⟩
  exact (runWhile_keeps (fun v => XferFrame s v ∧ noReset v.sched = true) hstep _ ⟨xferFrame_sched _ s, hn⟩).1

theorem xferFrame_transfer {m : Byte} (hn : noReset s.sched = true) (h : transfer m s = .next t) : XferFrame s t := by
  obtain ⟨st, -, rfl⟩ := transfer_next h
  have hn' : noReset (callXfer m st s).sched = true := by simpa [callXfer] using hn
  exact (xferFrame_callXfer m st s).trans (xferFrame_runXfer hn')

/-- The instructions that are modes of the primitive are calls with a mask. -/
theorem exec_xfer {i : Instr} (hi : i ∈ [Instr.xferByte, .xferBit]) : ∃ m, ∀ s, exec i s = transfer m s := by
  simp only [List.mem_cons, List.not_mem_nil, or_false] at hi
  rcases hi with rfl | rfl
  · exact ⟨Config.xmaskByte, fun _ => rfl⟩
  · exact ⟨Config.xmaskBit, fun _ => rfl⟩

/-- Settles O56: the call and every turn of the primitive keep the frame. -/
theorem transferFrame : Obligations.TransferFrame := by
  intro s t i hi hn h
  obtain ⟨m, hm⟩ := exec_xfer hi
  obtain ⟨⟨hen, hsdaDir, hsclDir, hsdaPort⟩, hopdF, hopdD, hrbuf, hres⟩ := xferFrame_transfer hn ((hm s).symm.trans h)
  exact ⟨hsdaDir, hsdaPort, hsclDir, hen, hopdF, hopdD, hrbuf, hres⟩

end Sys2Proof.Proofs
end

section
/-! SUPPORT. The turns of the Transfer Primitive: the steps of a call with the pulses still to come, and its return
under a peer that releases the clock (42_transfer_primitive.md R111 to R114). -/

namespace Sys2Proof.Proofs

open Sys2Proof.Machine Sys2Proof.Safety

variable {s : State} {st : MicroStep} {m : Byte} {x y : XferStep} {n k : Nat}

/-! ### Runs that reach a state -/

/-- Turns on which a run goes on are the run's first turns. -/
theorem runWhile_turns_add {g : State → Bool} {k : Nat} (hgo : ∀ j < k, g (turns j s) = true) (r : Nat) :
    runWhile g (k + r) s = runWhile g r (turns k s) := by
  induction k generalizing s with
  | zero => rw [Nat.zero_add]; rfl
  | succ k ih =>
    rw [Nat.add_right_comm, runWhile_go (s := s) (hgo 0 (Nat.succ_pos k))]
    exact ih fun j hj => hgo (j + 1) (Nat.succ_lt_succ hj)

/-- Turns inside the primitive lead from `s` to a state with `Q`: at most `N`, and one more for each move they take from
the coming ones. -/
def Returns (N : Nat) (Q : State → Prop) (s : State) : Prop :=
  ∃ k, (∀ j < k, inXfer (turns j s) = true) ∧ Q (turns k s) ∧ k + (turns k s).sched.length ≤ s.sched.length + N

theorem Returns.of_done {Q : State → Prop} (h : Q s) (N : Nat) : Returns N Q s :=
  ⟨0, fun _ hj => absurd hj (Nat.not_lt_zero _), h, by rw [Nat.zero_add]; exact Nat.le_add_right _ N⟩

theorem Returns.of_turn {Q : State → Prop} {N M : Nat} (h : Returns N Q (turn s)) (hx : inXfer s = true)
    (hlt : (turn s).sched.length + N < s.sched.length + M) : Returns M Q s := by
  obtain ⟨k, hgo, hQ, hk⟩ := h
  refine ⟨k + 1, fun j hj => ?_, hQ, ?_⟩
  · cases j with
    | zero => exact hx
    | succ j => exact hgo j (Nat.lt_of_succ_lt_succ hj)
  · change k + 1 + (turns k (turn s)).sched.length ≤ _
    omega

/-- The budget of a call is enough for what returns within it (log entry 3). -/
theorem Returns.at_runXfer {Q : State → Prop} {N : Nat} (h : Returns N Q s) (hN : N ≤ 128)
    (hQ : ∀ t, Q t → inXfer t = false) : Q (runXfer s) := by
  obtain ⟨k, hgo, hend, hk⟩ := h
  obtain ⟨r, hr⟩ := Nat.exists_eq_add_of_le (show k ≤ turnBudget s by unfold turnBudget; omega)
  rw [runXfer, hr, runWhile_turns_add hgo, runWhile_stop (hQ _ hend)]
  exact hend

/-! ### The steps of a call -/

/-- The pulses of a call with the mask `m`: two strobes each (R112). -/
def pulsesOf (m : Byte) : Nat := strobesUntilFlag m / 2

/-- SCL_PORT, CF and CNT at a step of a call with the mask `m`, `n` pulses before its end: what is still to count is two
strobes for each pulse, and one more between its two edges (R111, R112). -/
def XferRegs (m : Byte) (x : XferStep) (n : Nat) (port cf : Bool) (c : Count) : Prop :=
  match x with
  | .xf0 => n = pulsesOf m
  | .xf1 => port = false ∧ n = pulsesOf m
  | .xf2 | .xf3 => port = false ∧ cf = false ∧ c.toNat + 2 * n = 16
  | .xf4 | .xf5 | .xf6 => port = true ∧ cf = false ∧ c.toNat + 2 * n = 15
  | .xf7 => port = false ∧ (if n = 0 then cf = true ∧ c = 0#4 else cf = false ∧ c.toNat + 2 * n = 16)
  | .xf8 | .xf9 => port = false ∧ cf = true ∧ c = 0#4 ∧ n = 0

/-- The primitive, called from `st` with the mask `m`, stands at the step `x` with `n` pulses to come. -/
structure XferAt (st : MicroStep) (m : Byte) (x : XferStep) (n : Nat) (s : State) : Prop where
  seq : s.seq = .run st (some x)
  en : s.en = true
  sclDir : s.sclDir = true
  xmask : s.xmask = m
  regs : XferRegs m x n s.sclPort s.cf s.cnt

/-- The primitive has returned to the step after `st` (R113). -/
structure Returned (st : MicroStep) (m : Byte) (s : State) : Prop where
  seq : s.seq = afterStep st
  after : AfterByte s
  xmask : s.xmask = m
  low : sclLine s = false

theorem XferAt.inside (h : XferAt st m x n s) : inXfer s = true := (inXfer_iff s).mpr ⟨st, x, h.seq⟩

theorem inXfer_of_returned (h : Returned st m s) : inXfer s = false := by
  rw [inXfer, h.seq]
  cases st <;> rfl

/-- Which step follows a step, and how many pulses are to come there (R111). -/
inductive XferNext : XferStep → Nat → XferStep → Nat → Prop where
  | hold (n : Nat) : XferNext .xf0 n .xf1 n
  | count (n : Nat) : XferNext .xf1 n .xf2 n
  | low (n : Nat) : XferNext .xf2 n .xf3 n
  | rise (n : Nat) : XferNext .xf3 (n + 1) .xf4 n
  | wait (n : Nat) : XferNext .xf4 n .xf5 n
  | high (n : Nat) : XferNext .xf5 n .xf6 n
  | fall (n : Nat) : XferNext .xf6 n .xf7 n
  | again (n : Nat) : XferNext .xf7 (n + 1) .xf2 (n + 1)
  | leave : XferNext .xf7 0 .xf8 0
  | read : XferNext .xf8 0 .xf9 0

/-- The block steps from a step to the return when the clock is free: six for each pulse to come, and the way from the
step to the end of its round. -/
def stepsLeft (x : XferStep) (n : Nat) : Nat :=
  6 * n + match x with
    | .xf0 => 4
    | .xf1 => 3
    | .xf2 => 2
    | .xf3 => 1
    | .xf4 => 6
    | .xf5 => 5
    | .xf6 => 4
    | .xf7 => 3
    | .xf8 => 2
    | .xf9 => 1

theorem stepsLeft_pos (x : XferStep) (n : Nat) : 0 < stepsLeft x n := by
  cases x <;> exact Nat.succ_pos _

theorem XferNext.stepsLeft_eq (h : XferNext x n y k) : stepsLeft x n = stepsLeft y k + 1 := by
  cases h
  case rise => simp only [stepsLeft]; omega
  all_goals rfl

/-! ### One block step of a call -/

/-- A mask of R64 clears CF and leaves two strobes for each of its pulses. -/
theorem writtenStatus_of_mask (hm : m = 0xF0#8 ∨ m = 0xFE#8) (cf : Bool) :
    writtenFlag cf m = false ∧ (m.extractLsb' 0 4).toNat + 2 * pulsesOf m = 16 := by
  rcases hm with rfl | rfl <;> exact ⟨by simp [writtenFlag], rfl⟩

/-- The first strobe of a pulse counts up; the second one counts up, or wraps when no pulse is to come (R98, R99). -/
theorem xferRegs_rise (he : s.en = true) (h : XferRegs m .xf3 n s.sclPort s.cf s.cnt) :
    ∃ k, n = k + 1 ∧ XferRegs m .xf4 k (applyOp .strobe s).sclPort (applyOp .strobe s).cf (applyOp .strobe s).cnt := by
  obtain ⟨hport, hcf, hcnt⟩ := h
  obtain ⟨k, rfl⟩ : ∃ k, n = k + 1 := ⟨n - 1, by have := s.cnt.isLt; omega⟩
  have hne : s.cnt ≠ 15#4 := by bv_omega
  rw [strobe_of_no_wrap he hne]
  exact ⟨k, rfl, by simp [hport], hcf, by bv_omega⟩

theorem xferRegs_fall (he : s.en = true) (h : XferRegs m .xf6 n s.sclPort s.cf s.cnt) :
    XferRegs m .xf7 n (applyOp .strobe s).sclPort (applyOp .strobe s).cf (applyOp .strobe s).cnt := by
  obtain ⟨hport, hcf, hcnt⟩ := h
  by_cases hn : n = 0
  · have hc : s.cnt = 15#4 := by bv_omega
    rw [strobe_of_wrap he hc]
    exact ⟨by simp [hport], by simp [hn]⟩
  · have hne : s.cnt ≠ 15#4 := by bv_omega
    rw [strobe_of_no_wrap he hne]
    refine ⟨by simp [hport], ?_⟩
    rw [if_neg hn]
    exact ⟨hcf, by bv_omega⟩

/-- A step of the primitive that goes on to `y` leaves there what its micro-operation wrote. -/
theorem XferAt.microStep_next (h : XferAt st m x n s) (hseq : nextSeq st (some x) s = .run st (some y))
    (hregs : XferRegs m y k (applyOp (xferOp x) s).sclPort (applyOp (xferOp x) s).cf (applyOp (xferOp x) s).cnt) :
    XferAt st m y k (microStep st (some x) s) := by
  obtain ⟨-, -, -, hport, hcf, hcnt, -, hxmask, -⟩ := microStep_registers s st (some x)
  obtain ⟨hen, -, hsclDir, -⟩ := (xferFrame_microStep st x s).lines
  exact ⟨(microStep_seq s st _).trans hseq, hen.trans h.en, hsclDir.trans h.sclDir,
    hxmask.trans ((xferOp_xmask x s).trans h.xmask), by rw [hport, hcf, hcnt]; exact hregs⟩

/-- XF9 fills DR with ones while the clock is low, so the latch shows a one (R113). -/
theorem XferAt.returned (h : XferAt st m .xf9 n s) : Returned st m (microStep st (some .xf9) s) := by
  obtain ⟨hport, hcf, hcnt, -⟩ := h.regs
  have hlow : sclLine { s with dr := Config.idleFill, seq := afterStep st } = false := by
    simp [sclLine, masterSclLow, h.sclDir, hport]
  obtain ⟨hdr, hol⟩ := settle_of_low hlow
  exact {
    seq := microStep_seq s st (some .xf9)
    after := {
      sclPort := (finish_sclPort _ _).trans hport
      dr := (finish_dr _ _).trans hdr
      ol := (finish_ol _ _).trans (hol.trans (show (0xFF#8).getLsbD 7 = true by decide))
      cf := (finish_cf _ _).trans hcf
      cnt := (finish_cnt _ _).trans hcnt }
    xmask := (finish_xmask _ _).trans h.xmask
    low := (sclLine_finish _ _).trans hlow }

/-- With the master's pull released the clock line is the peer's. -/
theorem sclLine_eq_not_peer (h : s.sclPort = true) : sclLine s = !s.peerSclLow := by simp [sclLine, masterSclLow, h]

/-- What a block step of a call can do, said once: return, stand at the wait while the clock line is low, or go on. -/
theorem XferAt.blockStep_cases (hm : m = 0xF0#8 ∨ m = 0xFE#8) (h : XferAt st m x n s) :
    (x = .xf9 ∧ Returned st m (blockStep s)) ∨
    (s.peerSclLow = true ∧ XferAt st m x n (blockStep s)) ∨
    ∃ y k, XferNext x n y k ∧ XferAt st m y k (blockStep s) := by
  rw [blockStep_run h.seq]
  have hregs := h.regs
  cases x
  case xf0 => exact .inr (.inr ⟨_, n, .hold n, h.microStep_next rfl ⟨rfl, hregs⟩⟩)
  case xf1 =>
    obtain ⟨hport, rfl⟩ := hregs
    obtain ⟨hcf, hcnt⟩ := writtenStatus_of_mask hm s.cf
    rw [← h.xmask] at hcf hcnt
    exact .inr (.inr ⟨_, _, .count _, h.microStep_next rfl ⟨hport, hcf, h.xmask ▸ hcnt⟩⟩)
  case xf2 => exact .inr (.inr ⟨_, n, .low n, h.microStep_next rfl hregs⟩)
  case xf3 =>
    obtain ⟨k, rfl, hrise⟩ := xferRegs_rise h.en hregs
    exact .inr (.inr ⟨_, k, .rise k, h.microStep_next rfl hrise⟩)
  case xf4 =>
    have hwait := nextSeq_wait (st := st) (x := some .xf4) rfl s
    rw [sclLine_eq_not_peer hregs.1] at hwait
    cases hpeer : s.peerSclLow with
    | true => exact .inr (.inl ⟨rfl, h.microStep_next (hwait.trans (by rw [hpeer]; rfl)) hregs⟩)
    | false => exact .inr (.inr ⟨_, n, .wait n, h.microStep_next (hwait.trans (by rw [hpeer]; rfl)) hregs⟩)
  case xf5 => exact .inr (.inr ⟨_, n, .high n, h.microStep_next rfl hregs⟩)
  case xf6 => exact .inr (.inr ⟨_, n, .fall n, h.microStep_next rfl (xferRegs_fall h.en hregs)⟩)
  case xf7 =>
    obtain ⟨hport, hcount⟩ := hregs
    have htest : nextSeq st (some .xf7) s = .run st (some (if s.cf then .xf8 else .xf2)) := rfl
    cases n with
    | zero =>
      obtain ⟨hcf, hcnt⟩ := hcount
      exact .inr (.inr ⟨_, 0, .leave, h.microStep_next (htest.trans (by rw [hcf]; rfl)) ⟨hport, hcf, hcnt, rfl⟩⟩)
    | succ n =>
      obtain ⟨hcf, hcnt⟩ := hcount
      exact .inr (.inr ⟨_, n + 1, .again n, h.microStep_next (htest.trans (by rw [hcf]; rfl)) ⟨hport, hcf, hcnt⟩⟩)
  case xf8 =>
    obtain ⟨hport, hcf, hcnt, rfl⟩ := hregs
    exact .inr (.inr ⟨_, 0, .read, h.microStep_next rfl ⟨hport, hcf, hcnt, rfl⟩⟩)
  case xf9 => exact .inl ⟨rfl, h.returned⟩

/-! ### A call under a peer that releases the clock (R114) -/

theorem XferAt.withSched (h : XferAt st m x n s) (moves : List Turn) : XferAt st m x n { s with sched := moves } :=
  ⟨h.seq, h.en, h.sclDir, h.xmask, h.regs⟩

theorem XferAt.peerStep_keeps (h : XferAt st m x n s) (a b : Bool) : XferAt st m x n (peerStep a b s) := by
  constructor <;> simp [peerStep, h.seq, h.en, h.sclDir, h.xmask, h.regs]

/-- A busy turn under such a peer: a block step while the peer leaves the clock, or the first of the coming moves, the
block's or the peer's. -/
theorem turn_cases_of_clockReleased (h : ClockReleased s) (hb : busy s = true) :
    (turn s = blockStep s ∧ s.peerSclLow = false) ∨
    (∃ rest, s.sched = .block :: rest ∧ turn s = blockStep { s with sched := rest }) ∨
    (∃ a b rest, s.sched = .peer a b :: rest ∧ turn s = peerStep a b { s with sched := rest }) := by
  obtain ⟨hn, hfree⟩ := h
  match hs : s.sched with
  | [] => exact .inl ⟨turn_nil hs, by simpa [hs, finalSclLow] using hfree⟩
  | .block :: rest => exact .inr (.inl ⟨rest, rfl, turn_block hs⟩)
  | .peer a b :: rest => exact .inr (.inr ⟨a, b, rest, rfl, turn_peer hs⟩)
  | .reset :: rest => simp [hs, noReset] at hn
  | .host w :: rest => exact .inl ⟨turn_host_busy hs, by simpa [hs, finalSclLow] using hfree⟩
  | .hostRead :: rest => exact .inl ⟨turn_hostRead_busy hs hb, by simpa [hs, finalSclLow] using hfree⟩

theorem clockReleased_turn (h : ClockReleased s) (hb : busy s = true) : ClockReleased (turn s) := by
  refine ⟨noReset_turn h.noReset, ?_⟩
  have hfree := h.released
  rcases turn_cases_of_clockReleased h hb with ⟨e, -⟩ | ⟨rest, hs, e⟩ | ⟨a, b, rest, hs, e⟩ <;> rw [e]
  · simpa using hfree
  · simpa [hs, finalSclLow] using hfree
  · simpa [hs, finalSclLow, peerStep] using hfree

theorem busy_of_inXfer (h : inXfer s = true) : busy s = true := by
  obtain ⟨st, x, hs⟩ := (inXfer_iff s).mp h
  rw [busy, hs]

/-- A turn returns, or takes a coming move, or brings the return nearer. -/
theorem XferAt.turn_cases (hm : m = 0xF0#8 ∨ m = 0xFE#8) (h : XferAt st m x n s) (hc : ClockReleased s) :
    (Returned st m (turn s) ∧ (turn s).sched.length ≤ s.sched.length) ∨
    ∃ y k, XferAt st m y k (turn s) ∧
      (turn s).sched.length + stepsLeft y k < s.sched.length + stepsLeft x n := by
  rcases turn_cases_of_clockReleased hc (busy_of_inXfer h.inside) with ⟨e, hfree⟩ | ⟨rest, hs, e⟩ | ⟨a, b, rest, hs, e⟩
  · rw [e, blockStep_sched]
    rcases h.blockStep_cases hm with ⟨-, hret⟩ | ⟨hheld, -⟩ | ⟨y, k, hnext, hgo⟩
    · exact .inl ⟨hret, le_refl _⟩
    · exact absurd (hheld.symm.trans hfree) (by decide)
    · exact .inr ⟨y, k, hgo, by rw [hnext.stepsLeft_eq]; omega⟩
  · rw [e, blockStep_sched, hs, List.length_cons]
    dsimp only
    rcases (h.withSched rest).blockStep_cases hm with ⟨-, hret⟩ | ⟨-, hstay⟩ | ⟨y, k, hnext, hgo⟩
    · exact .inl ⟨hret, Nat.le_succ _⟩
    · exact .inr ⟨x, n, hstay, by omega⟩
    · exact .inr ⟨y, k, hgo, by rw [hnext.stepsLeft_eq]; omega⟩
  · rw [e, peerStep_sched, hs, List.length_cons]
    exact .inr ⟨x, n, (h.withSched rest).peerStep_keeps a b, by simp⟩

/-- The rule for a call: where each turn returns to a state with `Q`, or takes a coming move, or brings the return
nearer, the call returns. -/
theorem returns_of_turns {P : XferStep → Nat → State → Prop} {Q : State → Prop}
    (hin : ∀ x n s, P x n s → inXfer s = true)
    (hturn : ∀ x n s, P x n s → (Q (turn s) ∧ (turn s).sched.length ≤ s.sched.length) ∨
      ∃ y k, P y k (turn s) ∧ (turn s).sched.length + stepsLeft y k < s.sched.length + stepsLeft x n)
    (h : P x n s) : Returns (stepsLeft x n) Q s := by
  induction hN : s.sched.length + stepsLeft x n using Nat.strong_induction_on generalizing s x n with
  | _ N ih =>
    subst hN
    have hx := hin _ _ _ h
    rcases hturn _ _ _ h with ⟨hQ, hlen⟩ | ⟨y, k, hP, hlt⟩
    · exact (Returns.of_done hQ 0).of_turn hx (Nat.add_lt_add_of_le_of_lt hlen (stepsLeft_pos x n))
    · exact (ih _ hlt hP rfl).of_turn hx hlt

/-- A call returns under every peer that releases the clock in the end, and leaves it so. -/
theorem XferAt.returns (hm : m = 0xF0#8 ∨ m = 0xFE#8) (h : XferAt st m x n s) (hc : ClockReleased s) :
    Returns (stepsLeft x n) (fun t => Returned st m t ∧ ClockReleased t) s := by
  refine returns_of_turns (P := fun x n s => XferAt st m x n s ∧ ClockReleased s) (fun _ _ _ h => h.1.inside)
    (fun x n s ⟨h, hc⟩ => ?_) ⟨h, hc⟩
  have hc' : ClockReleased (turn s) := clockReleased_turn hc (busy_of_inXfer h.inside)
  rcases h.turn_cases hm hc with ⟨hret, hlen⟩ | ⟨y, k, hgo, hlt⟩
  · exact .inl ⟨⟨hret, hc'⟩, hlen⟩
  · exact .inr ⟨y, k, ⟨hgo, hc'⟩, hlt⟩

theorem xferAt_callXfer (he : s.en = true) (hd : s.sclDir = true) (m : Byte) (st : MicroStep) :
    XferAt st m .xf0 (pulsesOf m) (callXfer m st s) := by
  constructor <;> simp [callXfer, he, hd, XferRegs]

theorem clockReleased_callXfer (h : ClockReleased s) (m : Byte) (st : MicroStep) :
    ClockReleased (callXfer m st s) := by
  constructor <;> simp [callXfer, h.noReset, h.released]

/-- Either mask leaves the call within the budget: 52 block steps in byte mode (R112). -/
theorem stepsLeft_call_le (hm : m = 0xF0#8 ∨ m = 0xFE#8) : stepsLeft .xf0 (pulsesOf m) ≤ 52 := by
  rcases hm with rfl | rfl <;> decide

/-- From the call on, the primitive returns after at most 52 turns and the coming moves it takes. -/
theorem returns_callXfer (hm : m = 0xF0#8 ∨ m = 0xFE#8) (he : s.en = true) (hd : s.sclDir = true)
    (hc : ClockReleased s) (st : MicroStep) :
    Returns 52 (fun t => Returned st m t ∧ ClockReleased t) (callXfer m st s) := by
  obtain ⟨k, hgo, hQ, hk⟩ := (xferAt_callXfer he hd m st).returns hm (clockReleased_callXfer hc m st)
  exact ⟨k, hgo, hQ, hk.trans (Nat.add_le_add_left (stepsLeft_call_le hm) _)⟩

/-- Settles O42: the call returns, and what it leaves is its frame. -/
theorem transferReturns : Obligations.TransferReturns := by
  intro s st i m hi hs he hd hc
  have hm : m = 0xF0#8 ∨ m = 0xFE#8 := hi.imp And.right And.right
  have hexec : exec i s = transfer m s := by rcases hi with ⟨rfl, rfl⟩ | ⟨rfl, rfl⟩ <;> rfl
  have hnext := hexec.trans (transfer_run hs m)
  obtain ⟨hseq, hafter, hxmask, hlow⟩ :=
    ((returns_callXfer hm he hd hc st).at_runXfer (by decide) fun _ ht => inXfer_of_returned ht.1).1
  obtain ⟨⟨hen, hsdaDir, hsclDir, hsdaPort⟩, hopdF, hopdD, hrbuf, hres⟩ :=
    xferFrame_transfer hc.noReset (transfer_run hs m)
  exact ⟨_, hnext, hseq, hafter, hxmask, hlow, hsdaDir, hsclDir, hsdaPort, hen, hopdF, hopdD, hrbuf, hres⟩

end Sys2Proof.Proofs
end

section
/-! SUPPORT. What a call of the Transfer Primitive samples while the peer holds its levels
(42_transfer_primitive.md R118). -/

namespace Sys2Proof.Proofs

open Sys2Proof.Machine Sys2Proof.Safety

variable {s t : State} {st : MicroStep} {m v : Byte} {x y : XferStep} {n k : Nat} {f : Byte → Byte}

/-! ### One pulse -/

/-- DR after one pulse that finds `d` there: the latch puts the first bit on the data line, and the level of the line
enters at the other end (R96, R97). -/
def pulseDr (s : State) (d : Byte) : Byte := shiftIn d (sdaLine { s with ol := d.getLsbD 7 })

theorem pulseDr_congr (h : SameLines s t) (hpeer : t.peerSdaLow = s.peerSdaLow) : pulseDr t = pulseDr s := by
  obtain ⟨hen, hsdaDir, -, hsdaPort⟩ := h
  funext d
  simp only [pulseDr, sdaLine, masterSdaLow, hen, hsdaDir, hsdaPort, hpeer]

/-- With the clock an output and left by the peer its line is the master's. -/
theorem sclLine_eq_sclPort (hd : s.sclDir = true) (hfree : s.peerSclLow = false) : sclLine s = s.sclPort := by
  simp [sclLine, masterSclLow, hd, hfree]

/-- SCL_PORT rises at XF3 only: at XF6 it falls (R111). -/
theorem XferAt.sclPort_rise (h : XferAt st m x n s) (hlow : s.sclPort = false)
    (hhigh : (applyOp (xferOp x) s).sclPort = true) : x = .xf3 := by
  have hregs := h.regs
  cases x
  case xf3 => rfl
  case xf0 => cases hhigh
  case xf4 | xf5 | xf6 => exact absurd (hlow.symm.trans hregs.1) Bool.false_ne_true
  all_goals exact absurd (hlow.symm.trans hhigh) Bool.false_ne_true

/-- The rising edge of a pulse: the latch still shows the bit the data line is sampled with. -/
theorem XferAt.dr_rise (h : XferAt st m .xf3 n s) (hset : Settled s) (hfree : s.peerSclLow = false) :
    (microStep st (some .xf3) s).dr = pulseDr s s.dr := by
  let w : State := { applyOp .strobe s with seq := .run st (some .xf4) }
  have hlow : sclLine s = false := (sclLine_eq_sclPort h.sclDir hfree).trans h.regs.1
  have hline : sclLine w = true := by simp [w, applyOp, sclLine, masterSclLow, h.regs.1, hfree]
  have hedge : risingEdge w = true :=
    (risingEdge_iff w).mpr ⟨applyOp_en_of_en .strobe h.en, (applyOp_sclq s .strobe).trans (hset.1.trans hlow), hline⟩
  have hsample : sdaLine w = sdaLine { s with ol := s.dr.getLsbD 7 } := by
    rw [← hset.2 (.inr hlow)]
    simp [w, applyOp, sdaLine, masterSdaLow]
  calc (finish s w).dr
    _ = shiftIn w.dr (sdaLine w) := by rw [finish_dr, settle_dr, if_pos hedge]
    _ = pulseDr s s.dr := by rw [hsample, pulseDr]; simp [w, applyOp]

/-- Over the other steps before XF9 DR stands. -/
theorem XferAt.dr_blockStep (h : XferAt st m x n s) (hset : Settled s) (hfree : s.peerSclLow = false)
    (hx : x ≠ .xf9) : (blockStep s).dr = if x = .xf3 then pulseDr s s.dr else s.dr := by
  have hclock : s.sclq = s.sclPort := hset.1.trans (sclLine_eq_sclPort h.sclDir hfree)
  have hline : sclLine (microStep st (some x) s) = (applyOp (xferOp x) s).sclPort := by
    obtain ⟨-, hsclDir, -, hport, -⟩ := microStep_registers s st (some x)
    rw [sclLine_eq_sclPort (by simpa using applyOp_sclDir_of_sclDir _ h.sclDir) (by simpa using hfree), hport]
    rfl
  rw [blockStep_run h.seq]
  split
  · next hx3 =>
    subst hx3
    exact h.dr_rise hset hfree
  · next hx3 =>
    by_contra hne
    rcases microStep_dr_ne hne with hw | ⟨-, hlow, hhigh⟩
    · rcases opAt_dr_site (applyOp_dr_ne hw) with ⟨hnone, -⟩ | hxf9
      · cases hnone
      · exact hx (Option.some.inj hxf9)
    · exact hx3 (h.sclPort_rise (hclock.symm.trans hlow) (hline.symm.trans hhigh))

theorem XferAt.tmp_blockStep (h : XferAt st m x n s) :
    (blockStep s).tmp = if x = .xf8 then s.dr else s.tmp := by
  rw [blockStep_run h.seq]
  obtain ⟨-, -, -, -, -, -, -, -, -, -, htmp, -⟩ := microStep_registers s st (some x)
  rw [htmp]
  cases x <;> simp [opAt, xferOp, applyOp]

/-! ### The pulses of a call -/

/-- A call at the step `x` under a peer that holds its levels and leaves the clock, each of whose pulses changes DR by
`f`: what TMP will hold is `v`. -/
structure SamplesAt (st : MicroStep) (m : Byte) (f : Byte → Byte) (v : Byte) (x : XferStep) (n : Nat) (s : State) :
    Prop where
  call : XferAt st m x n s
  settled : Settled s
  sched : s.sched = []
  free : s.peerSclLow = false
  pulse : pulseDr s = f
  sample : if x = .xf9 then s.tmp = v else f^[n] s.dr = v

/-- A pulse less is to come after XF3, and XF8 reads what they have left. -/
theorem SamplesAt.sample_blockStep (h : SamplesAt st m f v x n s) (hnext : XferNext x n y k) :
    if y = .xf9 then (blockStep s).tmp = v else f^[k] (blockStep s).dr = v := by
  obtain ⟨hat, hset, -, hfree, rfl, hsample⟩ := h
  have hx : x ≠ .xf9 := by rintro rfl; cases hnext
  rw [if_neg hx] at hsample
  rw [hat.tmp_blockStep, hat.dr_blockStep hset hfree hx]
  cases hnext <;> exact hsample

theorem SamplesAt.turn_cases (hm : m = 0xF0#8 ∨ m = 0xFE#8) (h : SamplesAt st m f v x n s) :
    (((turn s).tmp = v ∧ inXfer (turn s) = false) ∧ (turn s).sched.length ≤ s.sched.length) ∨
    ∃ y k, SamplesAt st m f v y k (turn s) ∧
      (turn s).sched.length + stepsLeft y k < s.sched.length + stepsLeft x n := by
  obtain ⟨hat, hset, hsched, hfree, hpulse, hsample⟩ := h
  rw [turn_nil hsched, blockStep_sched]
  rcases hat.blockStep_cases hm with ⟨rfl, hret⟩ | ⟨hheld, -⟩ | ⟨y, k, hnext, hgo⟩
  · refine .inl ⟨⟨?_, inXfer_of_returned hret⟩, le_refl _⟩
    rw [hat.tmp_blockStep]
    exact hsample
  · exact absurd (hheld.symm.trans hfree) (by decide)
  · refine .inr ⟨y, k, ?_, by rw [hnext.stepsLeft_eq]; omega⟩
    have hframe := xferFrame_blockStep hat.inside
    have hpeer : (blockStep s).peerSdaLow = s.peerSdaLow := by rw [blockStep_run hat.seq, microStep_peerSdaLow]
    exact ⟨hgo, kept_settled.block s hset, (blockStep_sched s).trans hsched, (blockStep_peerSclLow s).trans hfree,
      (pulseDr_congr hframe.lines hpeer).trans hpulse,
      SamplesAt.sample_blockStep ⟨hat, hset, hsched, hfree, hpulse, hsample⟩ hnext⟩

/-- A call leaves in TMP what its pulses make of DR. -/
theorem transfer_samples (hm : m = 0xF0#8 ∨ m = 0xFE#8) (hs : s.seq = .run st none) (he : s.en = true)
    (hd : s.sclDir = true) (hset : Settled s) (hsched : s.sched = []) (hfree : s.peerSclLow = false) :
    ∃ t, transfer m s = .next t ∧ t.tmp = (pulseDr s)^[pulsesOf m] s.dr := by
  have hcall : callXfer m st s = { s with xmask := m, seq := .run st (some .xf0) } :=
    finish_of_same (b := s) (a := { s with xmask := m, seq := .run st (some .xf0) }) hset rfl rfl
  have hstart : SamplesAt st m (pulseDr s) ((pulseDr s)^[pulsesOf m] s.dr) .xf0 (pulsesOf m) (callXfer m st s) := by
    refine ⟨xferAt_callXfer he hd m st, ?_, ?_, ?_, ?_, ?_⟩ <;> rw [hcall]
    exacts [hset, hsched, hfree, pulseDr_congr ⟨rfl, rfl, rfl, rfl⟩ rfl, rfl]
  have hends := returns_of_turns (Q := fun t => t.tmp = _ ∧ inXfer t = false) (fun _ _ _ h => h.call.inside)
    (fun _ _ _ h => h.turn_cases hm) hstart
  have hbudget := (stepsLeft_call_le hm).trans (show 52 ≤ 128 by decide)
  exact ⟨_, transfer_run hs m, (hends.at_runXfer hbudget fun _ ht => ht.2).1⟩

/-! ### The byte the pulses leave -/

/-- While the master sends, the level is its bit, wired-AND with the peer (R15). -/
theorem pulseDr_sending (he : s.en = true) (hdir : s.sdaDir = true) (hport : s.sdaPort = true) :
    pulseDr s = fun d => shiftIn d (d.getLsbD 7 && !s.peerSdaLow) := by
  funext d
  simp [pulseDr, sdaLine, masterSdaLow, he, hdir, hport]

/-- While the master listens, the level is the peer's (R15). -/
theorem pulseDr_listening (hdir : s.sdaDir = false) : pulseDr s = fun d => shiftIn d (!s.peerSdaLow) := by
  funext d
  simp [pulseDr, sdaLine, masterSdaLow, hdir]

/-- Eight bits that come back one by one make the byte again; of a byte that is pulled low nothing remains. -/
theorem iterate_pulse_sending (low : Bool) (d : Byte) :
    (fun d => shiftIn d (d.getLsbD 7 && !low))^[8] d = if low then 0x00#8 else d := by
  revert low d; decide

/-- Nothing of a byte remains after eight levels from outside. -/
theorem iterate_pulse_listening (low : Bool) (d : Byte) :
    (fun d => shiftIn d (!low))^[8] d = if low then 0x00#8 else 0xFF#8 := by
  revert low d; decide

/-- Settles O43: eight pulses in byte mode and one in bit mode, with the level the line has in each direction. -/
theorem transferSamples : Obligations.TransferSamples := by
  intro s st hs he hd hset hsched hfree
  obtain ⟨t, ht, hbyte⟩ := transfer_samples (.inl rfl) hs he hd hset hsched hfree
  obtain ⟨u, hu, hbit⟩ := transfer_samples (.inr rfl) hs he hd hset hsched hfree
  refine ⟨fun hdir hport => ?sending, fun hdir => ?listening⟩
  case sending =>
    rw [pulseDr_sending he hdir hport] at hbyte hbit
    exact ⟨⟨t, ht, hbyte.trans (iterate_pulse_sending _ _)⟩, u, hu, hbit⟩
  case listening =>
    rw [pulseDr_listening hdir] at hbyte hbit
    exact ⟨⟨t, ht, hbyte.trans (iterate_pulse_listening _ _)⟩, u, hu, hbit⟩

end Sys2Proof.Proofs
end

section
/-! SUPPORT. INIT, START and STOP as straight lines: the registers a micro-program leaves, how far it has come, that it
ends, and what it leaves alone (43_protocol_operations.md R120, R121, R122). -/

namespace Sys2Proof.Proofs

open Sys2Proof.Machine Sys2Proof.Safety

variable {s t : State} {st first : MicroStep} {op : Op} {R : State}

/-! ### The registers that only micro-operations write -/

/-- The registers that neither settle() nor another agent writes; everything else is blanked. -/
def regs (s : State) : State :=
  { s with
    dr := 0x00#8, ol := false, sclq := false, seq := .idle, peerSdaLow := false, peerSclLow := false, sched := []
    obsPending := none, obsTrace := [] }

theorem registers_of_regs_eq (h : regs t = regs s) :
    t.sdaDir = s.sdaDir ∧ t.sclDir = s.sclDir ∧ t.sdaPort = s.sdaPort ∧ t.sclPort = s.sclPort ∧ t.cf = s.cf ∧
      t.cnt = s.cnt ∧ t.en = s.en ∧ t.xmask = s.xmask ∧ t.opdF = s.opdF ∧ t.opdD = s.opdD ∧ t.tmp = s.tmp ∧
      t.rbuf = s.rbuf ∧ t.res = s.res := by
  simpa [regs] using h

@[simp] theorem regs_finish (b s : State) : regs (finish b s) = regs s := by simp [regs]

@[simp] theorem regs_peerStep (a b : Bool) (s : State) : regs (peerStep a b s) = regs s := by simp [peerStep, regs]

@[simp] theorem regs_microStep (st : MicroStep) (x : Option XferStep) (s : State) :
    regs (microStep st x s) = regs (applyOp (opAt st x) s) := by simp [microStep, regs]

theorem regs_countStrobe (s : State) : regs (countStrobe (regs s)) = regs (countStrobe s) := by
  cases he : s.en with
  | false => rw [countStrobe_of_disabled he, countStrobe_of_disabled (s := regs s) he]; rfl
  | true => simp [countStrobe, regs, he]

/-- But for the read of DR, a micro-operation writes these registers from these registers. -/
theorem regs_applyOp {o : MicroOp} (h : o ≠ .readDr) (s : State) :
    regs (applyOp o (regs s)) = regs (applyOp o s) := by
  cases o
  case readDr => exact absurd rfl h
  case strobe => exact regs_countStrobe { s with sclPort := !s.sclPort }
  all_goals rfl

/-! ### The three micro-programs -/

/-- The commands that call no transfer. -/
def IsProtocol (op : Op) : Prop := op ∈ [.init, .start, .stop]

/-- The micro-steps of such a command (R120, R121, R122). -/
def lengthOf : Op → Nat
  | .init => 7
  | .start => 8
  | .stop => 6
  | .idle | .wrb | .rdb | .wra => 0

/-- The micro-steps from SEQ to the end of the command. -/
def stepsToEnd : Sequencer → Nat
  | .idle => 0
  | .run st _ => lengthOf (opOf st) - upcOf st

theorem stepsToEnd_le (p : Sequencer) : stepsToEnd p ≤ 8 := by
  cases p with
  | idle => exact Nat.zero_le 8
  | run st x => cases st <;> simp [stepsToEnd, opOf, upcOf, lengthOf]

/-- SEQ is at a micro-step of the command `op`, or the command has ended. -/
def Within (op : Op) (p : Sequencer) : Prop := p = .idle ∨ ∃ st, p = .run st none ∧ opOf st = op

/-- Each micro-step leads one step nearer to the end of its own command. -/
theorem afterStep_within (hop : IsProtocol (opOf st)) :
    Within (opOf st) (afterStep st) ∧ stepsToEnd (.run st none) = stepsToEnd (afterStep st) + 1 := by
  cases st
  case in6 | st7 | sp5 => exact ⟨.inl rfl, rfl⟩
  case wb0 | wb1 | wb2 | wb3 | wb4 | wb5 | rd0 | rd1 | rd2 | rd3 | rd4 | rd5 | rd6 | wa0 =>
    simp [IsProtocol, opOf] at hop
  all_goals exact ⟨.inr ⟨_, rfl, rfl⟩, rfl⟩

/-- Each wait of these commands stands behind the release of the clock (R121, R122). -/
theorem sclHigh_of_wait_next {st' : MicroStep} (hnext : afterStep st = .run st' none)
    (hwait : commandOp st' = .waitSclHigh) : commandOp st = .sclHigh := by
  revert hwait; cases st <;> cases hnext <;> simp [commandOp]

theorem commandOp_ne_readDr (st : MicroStep) : commandOp st ≠ .readDr := by
  cases st <;> simp [commandOp]

theorem not_call_of_isProtocol (hop : IsProtocol (opOf st)) (m : Byte) : commandOp st ≠ .callXfer m := by
  revert hop; cases st <;> simp [IsProtocol, opOf, commandOp]

theorem not_wait_of_init (hop : opOf st = .init) : commandOp st ≠ .waitSclHigh := by
  revert hop; cases st <;> simp [opOf, commandOp]

/-- What at most `n` micro-steps from SEQ on make of the registers. -/
def effect : Nat → Sequencer → State → State
  | 0, _, r => r
  | _ + 1, .idle, r => r
  | n + 1, .run st _, r => effect n (afterStep st) (regs (applyOp (commandOp st) r))

/-- INIT, START or STOP runs, or has ended, and what is still to come of it leaves the registers `R`. -/
structure RunsTo (op : Op) (R : State) (s : State) : Prop where
  within : Within op s.seq
  effect : effect (stepsToEnd s.seq) s.seq (regs s) = R
  released : ∀ st, s.seq = .run st none → commandOp st = .waitSclHigh → s.sclPort = true

theorem runsTo_microStep_after (hop : IsProtocol (opOf st)) (hnext : nextSeq st none s = afterStep st)
    (heff : effect (stepsToEnd (.run st none)) (.run st none) (regs s) = R) :
    RunsTo (opOf st) R (microStep st none s) := by
  obtain ⟨hwithin, hsteps⟩ := afterStep_within hop
  have hseq : (microStep st none s).seq = afterStep st := (microStep_seq s st none).trans hnext
  refine ⟨hseq ▸ hwithin, ?_, fun st' hst' hwait => ?_⟩
  · rw [hsteps, effect, regs_applyOp (commandOp_ne_readDr st)] at heff
    rw [hseq, regs_microStep]
    exact heff
  · have hrelease := sclHigh_of_wait_next (hseq.symm.trans hst') hwait
    obtain ⟨-, -, -, hport, -⟩ := microStep_registers s st none
    rw [hport, opAt, hrelease]
    rfl

/-- A micro-step goes on, or waits and writes nothing. -/
theorem kept_runsTo (hop : IsProtocol op) (R : State) : KeptByMoves (RunsTo op R) where
  block v h := by
    obtain ⟨hidle | ⟨st, hs, rfl⟩, heff, hrel⟩ := h
    · rw [blockStep_idle hidle]
      exact ⟨.inl hidle, heff, hrel⟩
    · rw [blockStep_run hs]
      rw [hs] at heff hrel
      rcases nextSeq_none_cases st v with hnext | ⟨hwait, hnext⟩ | ⟨m, hcall, -⟩
      · exact runsTo_microStep_after hop hnext heff
      · have hseq : (microStep st none v).seq = .run st none := (microStep_seq v st none).trans hnext
        obtain ⟨-, -, -, hport, -⟩ := microStep_registers v st none
        rw [opAt, hwait] at hport
        refine ⟨.inr ⟨st, hseq, rfl⟩, ?_, fun st' hst' _ => hport.trans (hrel st rfl hwait)⟩
        rw [hseq, regs_microStep, opAt, hwait]
        exact heff
      · exact absurd hcall (not_call_of_isProtocol hop m)
  peer a b v h := ⟨by simpa using h.within, by simpa using h.effect, by simpa [peerStep] using h.released⟩
  sched _ _ h := ⟨h.within, h.effect, h.released⟩

theorem runsTo_turn (hop : IsProtocol op) (hn : noReset s.sched = true) (h : RunsTo op R s) : RunsTo op R (turn s) :=
  (kept_runsTo hop R).turn (fun rest hs => by simp [hs, noReset] at hn) h

theorem runsTo_accept (hwait : commandOp first ≠ .waitSclHigh) (f : Bool) (d : Byte) (s : State) :
    RunsTo (opOf first) (effect (stepsToEnd (.run first none)) (.run first none) (regs (accept first f d s)))
      (accept first f d s) :=
  ⟨.inr ⟨first, rfl, rfl⟩, rfl, fun st hst h => absurd (by cases hst; exact h) hwait⟩

/-! ### The end of the three commands -/

/-- A busy turn without a reset: a block step, while the peer leaves the clock if it does so in the end, or the first of
the coming moves, the block's or the peer's. -/
theorem turn_cases_of_noReset (hn : noReset s.sched = true) (hb : busy s = true) :
    (turn s = blockStep s ∧ (ClockReleased s → s.peerSclLow = false)) ∨
    (∃ rest, s.sched = .block :: rest ∧ turn s = blockStep { s with sched := rest }) ∨
    (∃ a b rest, s.sched = .peer a b :: rest ∧ turn s = peerStep a b { s with sched := rest }) := by
  by_cases hc : ClockReleased s
  · exact (turn_cases_of_clockReleased hc hb).imp_left fun ⟨e, hfree⟩ => ⟨e, fun _ => hfree⟩
  · rcases turn_cases s with e | hblock | hpeer | ⟨rest, hs, -⟩ | ⟨-, -, hidle, -⟩
    · exact .inl ⟨e, fun h => absurd h hc⟩
    · exact .inr (.inl hblock)
    · exact .inr (.inr hpeer)
    · simp [hs, noReset] at hn
    · exact absurd (hb.symm.trans hidle) (by decide)

/-- A block step of one of the three commands leads one step nearer to its end, or stands at a wait of START or STOP
while the peer holds the clock. -/
theorem RunsTo.blockStep_cases (hop : IsProtocol op) (h : RunsTo op R s) (hb : busy s = true) :
    stepsToEnd s.seq = stepsToEnd (blockStep s).seq + 1 ∨
    (op ≠ .init ∧ s.peerSclLow = true ∧ (blockStep s).seq = s.seq) := by
  obtain ⟨hidle | ⟨st, hs, rfl⟩, -, hrel⟩ := h
  · simp [busy, hidle] at hb
  · rw [blockStep_run hs, microStep_seq, hs]
    by_cases hwait : commandOp st = .waitSclHigh
    · have hline : sclLine s = !s.peerSclLow := sclLine_eq_not_peer (hrel st hs hwait)
      rw [nextSeq_wait (x := none) hwait, hline]
      cases s.peerSclLow with
      | false => exact .inl (afterStep_within hop).2
      | true => exact .inr ⟨fun hinit => not_wait_of_init hinit hwait, rfl, rfl⟩
    · rcases nextSeq_none_cases st s with hnext | ⟨hwait', -⟩ | ⟨m, hcall, -⟩
      · exact .inl (hnext ▸ (afterStep_within hop).2)
      · exact absurd hwait' hwait
      · exact absurd hcall (not_call_of_isProtocol hop m)

/-- The turns to the end of the command: the coming moves, and the micro-steps to come. -/
def turnsToEnd (s : State) : Nat := s.sched.length + stepsToEnd s.seq

theorem RunsTo.turnsToEnd_lt (hop : IsProtocol op) (h : RunsTo op R s) (hb : busy s = true)
    (hn : noReset s.sched = true) (hfree : op ≠ .init → ClockReleased s) : turnsToEnd (turn s) < turnsToEnd s := by
  rcases turn_cases_of_noReset hn hb with ⟨e, hleft⟩ | ⟨rest, hs, e⟩ | ⟨a, b, rest, hs, e⟩ <;>
    rw [e, turnsToEnd, turnsToEnd]
  · rw [blockStep_sched]
    rcases h.blockStep_cases hop hb with hless | ⟨hne, hheld, -⟩
    · omega
    · exact absurd (hheld.symm.trans (hleft (hfree hne))) (by decide)
  · rw [blockStep_sched, hs, List.length_cons]
    rcases ((kept_runsTo hop R).sched rest s h).blockStep_cases hop hb with hless | ⟨-, -, hstay⟩
    · dsimp only at hless ⊢
      omega
    · rw [hstay]
      dsimp only
      omega
  · rw [peerStep_sched, peerStep_seq, hs, List.length_cons]
    dsimp only
    omega

/-- INIT under every peer, START and STOP under every peer that releases the clock in the end, come to their end, with
the registers that their micro-steps make. -/
theorem issue_ends (hop : IsProtocol (opOf first)) (hfirst : commandOp first ≠ .waitSclHigh) (hidle : s.seq = .idle)
    (hn : noReset s.sched = true) (hfree : opOf first ≠ .init → ClockReleased s) (f : Bool) (d : Byte) :
    ∃ t, issue first f d s = .next t ∧ t.seq = .idle ∧
      regs t = effect (stepsToEnd (.run first none)) (.run first none) (regs (accept first f d s)) := by
  have hstart := runsTo_accept hfirst f d s
  generalize effect _ _ _ = R at hstart ⊢
  have hstep : ∀ v, (RunsTo (opOf first) R v ∧ noReset v.sched = true ∧ (opOf first ≠ .init → ClockReleased v)) →
      busy v = true → (RunsTo (opOf first) R (turn v) ∧ noReset (turn v).sched = true ∧
        (opOf first ≠ .init → ClockReleased (turn v))) ∧ turnsToEnd (turn v) < turnsToEnd v := by
    rintro v ⟨hruns, hnv, hv⟩ hb
    exact ⟨⟨runsTo_turn hop hnv hruns, noReset_turn hnv, fun hne => clockReleased_turn (hv hne) hb⟩,
      hruns.turnsToEnd_lt hop hb hnv hv⟩
  have hbudget : turnsToEnd (accept first f d s) ≤ turnBudget (accept first f d s) :=
    Nat.add_le_add_left ((stepsToEnd_le _).trans (by decide)) _
  obtain ⟨⟨⟨hwithin, heff, -⟩, -⟩, hend⟩ := runWhile_ends _ turnsToEnd hstep _
    ⟨hstart, hn, fun hne => ⟨(hfree hne).noReset, (hfree hne).released⟩⟩ hbudget
  have hseq : (runCommand (accept first f d s)).seq = .idle := by
    rcases hwithin with hseq | ⟨st, hs, -⟩
    · exact hseq
    · rw [busy, hs] at hend
      cases hend
  refine ⟨_, issue_idle hidle first f d, hseq, ?_⟩
  change effect (stepsToEnd (runCommand _).seq) _ (regs (runCommand _)) = R at heff
  rwa [hseq] at heff

/-- IN6 arms the unit: the counter at zero, the flag cleared (R120). -/
theorem writeStatus_initStatus (s : State) : writeStatus Config.initStatus s = { s with cf := false, cnt := 0#4 } :=
  (statusAccess s Config.initStatus).1

/-- What INIT makes of the registers (R120). -/
theorem effect_init (f : Bool) (d : Byte) (s : State) :
    effect (stepsToEnd (.run .in0 none)) (.run .in0 none) (regs (accept .in0 f d s)) = regs { s with
      sdaDir := true, sclDir := true, sdaPort := true, sclPort := true, en := true, cf := false, cnt := 0#4
      opdF := f, opdD := d } := by
  simp only [effect, afterStep, commandOp, applyOp, regs, stepsToEnd, lengthOf, opOf, upcOf, accept, loadOperands,
    writeStatus_initStatus]

/-- What START makes of the registers (R121). -/
theorem effect_start (f : Bool) (d : Byte) (s : State) :
    effect (stepsToEnd (.run .st0 none)) (.run .st0 none) (regs (accept .st0 f d s)) =
      regs { s with sdaPort := true, sclPort := false, opdF := f, opdD := d } := by
  simp only [effect, afterStep, commandOp, applyOp, regs, stepsToEnd, lengthOf, opOf, upcOf, accept, loadOperands]

/-- What STOP makes of the registers (R122). -/
theorem effect_stop (f : Bool) (d : Byte) (s : State) :
    effect (stepsToEnd (.run .sp0 none)) (.run .sp0 none) (regs (accept .sp0 f d s)) =
      regs { s with sdaPort := true, sclPort := true, opdF := f, opdD := d } := by
  simp only [effect, afterStep, commandOp, applyOp, regs, stepsToEnd, lengthOf, opOf, upcOf, accept, loadOperands]

/-- Settles O32: INIT has no wait, and its micro-steps leave the registers so. -/
theorem initResult : Obligations.InitResult := by
  intro s hidle hn
  obtain ⟨t, ht, hend, hregs⟩ := issue_ends (first := .in0) (by simp [IsProtocol, opOf]) (by decide) hidle hn
    (fun h => absurd rfl h) false 0x00#8
  obtain ⟨hsdaDir, hsclDir, hsdaPort, hsclPort, hcf, hcnt, hen, hxmask, hopdF, hopdD, htmp, hrbuf, hres⟩ :=
    registers_of_regs_eq (hregs.trans (effect_init _ _ s))
  exact ⟨t, ht, hend, hsdaDir, hsclDir, hsdaPort, hsclPort, hen, hcf, hcnt, hopdF, hopdD, hxmask, htmp, hrbuf, hres⟩

/-- Settles O52: INIT ends, in one state. -/
theorem initFrame : Obligations.InitFrame := by
  intro s t hn ht
  obtain ⟨u, hu, -, -, -, -, -, -, -, -, hopdF, hopdD, hxmask, htmp, hrbuf, hres⟩ := initResult s (issue_next ht).1 hn
  cases ht.symm.trans hu
  exact ⟨hxmask, htmp, hrbuf, hres, hopdF, hopdD⟩

/-- Settles O34: START's wait ends when the peer releases the clock, and its micro-steps leave the registers so. -/
theorem startResult : Obligations.StartResult := by
  intro s hidle hc
  obtain ⟨t, ht, hend, hregs⟩ := issue_ends (first := .st0) (by simp [IsProtocol, opOf]) (by decide) hidle hc.noReset
    (fun _ => hc) false 0x00#8
  obtain ⟨hsdaDir, hsclDir, hsdaPort, hsclPort, hcf, hcnt, hen, hxmask, hopdF, hopdD, htmp, hrbuf, hres⟩ :=
    registers_of_regs_eq (hregs.trans (effect_start _ _ s))
  exact ⟨t, ht, hend, hsdaPort, hsclPort, hopdF, hopdD, hsdaDir, hsclDir, hen, hcf, hcnt, hxmask, htmp, hrbuf, hres⟩

/-- Settles O35: STOP's wait ends when the peer releases the clock, and its micro-steps leave the registers so. -/
theorem stopResult : Obligations.StopResult := by
  intro s hidle hc
  obtain ⟨t, ht, hend, hregs⟩ := issue_ends (first := .sp0) (by simp [IsProtocol, opOf]) (by decide) hidle hc.noReset
    (fun _ => hc) false 0x00#8
  obtain ⟨hsdaDir, hsclDir, hsdaPort, hsclPort, hcf, hcnt, hen, hxmask, hopdF, hopdD, htmp, hrbuf, hres⟩ :=
    registers_of_regs_eq (hregs.trans (effect_stop _ _ s))
  exact ⟨t, ht, hend, hsdaPort, hsclPort, hopdF, hopdD, hsdaDir, hsclDir, hen, hcf, hcnt, hxmask, htmp, hrbuf, hres⟩

/-! ### What START and STOP leave alone -/

/-- The registers with the two level latches blanked as well. -/
def regsButPorts (s : State) : State := regs { s with sdaPort := true, sclPort := true }

/-- The micro-operations of START and STOP write the two level latches only (R121, R122). -/
theorem regsButPorts_commandOp (hop : opOf st ∈ [.start, .stop]) (r : State) :
    regsButPorts (applyOp (commandOp st) r) = regsButPorts r := by
  cases st
  case st0 | st1 | st2 | st3 | st4 | st5 | st6 | st7 | sp0 | sp1 | sp2 | sp3 | sp4 | sp5 => rfl
  all_goals simp [opOf] at hop

theorem regsButPorts_effect (hop : op ∈ [Op.start, .stop]) {p : Sequencer} (hp : Within op p) (n : Nat) (r : State) :
    regsButPorts (effect n p r) = regsButPorts r := by
  induction n generalizing p r with
  | zero => rfl
  | succ n ih =>
    rcases hp with rfl | ⟨st, rfl, rfl⟩
    · rfl
    · exact (ih (afterStep_within (List.mem_cons_of_mem _ hop)).1 _).trans (regsButPorts_commandOp hop r)

/-- Ended or blocked, START and STOP have written the two level latches only. -/
theorem regsButPorts_issue (hop : opOf first ∈ [.start, .stop]) (hfirst : commandOp first ≠ .waitSclHigh)
    (hn : noReset s.sched = true) {f : Bool} {d : Byte} (h : issue first f d s = .next t) :
    regsButPorts t = regsButPorts (accept first f d s) := by
  obtain ⟨-, rfl⟩ := issue_next h
  have hprot : IsProtocol (opOf first) := List.mem_cons_of_mem _ hop
  have hstart := runsTo_accept hfirst f d s
  obtain ⟨⟨hwithin, heff, -⟩, -⟩ := runWhile_keeps (fun v => RunsTo _ _ v ∧ noReset v.sched = true)
    (fun v hv (_ : busy v = true) => ⟨runsTo_turn hprot hv.2 hv.1, noReset_turn hv.2⟩)
    (turnBudget (accept first f d s)) ⟨hstart, hn⟩
  have hsame := congrArg regsButPorts heff
  rw [regsButPorts_effect hop hwithin, regsButPorts_effect hop (.inr ⟨first, rfl, rfl⟩)] at hsame
  exact hsame

/-- Settles O53: the registers but for the two level latches are those of the acceptance. -/
theorem startStopFrame : Obligations.StartStopFrame := by
  intro s t i hi hn h
  have hsame : regsButPorts t = regsButPorts { s with opdF := false, opdD := 0x00#8 } := by
    simp only [List.mem_cons, List.not_mem_nil, or_false] at hi
    rcases hi with rfl | rfl
    · exact regsButPorts_issue (first := .st0) (by simp [opOf]) (by decide) hn h
    · exact regsButPorts_issue (first := .sp0) (by simp [opOf]) (by decide) hn h
  obtain ⟨hsdaDir, hsclDir, -, -, hcf, hcnt, hen, hxmask, hopdF, hopdD, htmp, hrbuf, hres⟩ :=
    registers_of_regs_eq hsame
  exact ⟨hsdaDir, hsclDir, hen, hcf, hcnt, hxmask, htmp, hrbuf, hres, hopdF, hopdD⟩

end Sys2Proof.Proofs
end

section
/-! SUPPORT. The edges of the two lines, one rule each, and commands that run with no other agent's move between their
micro-steps (20_memory.md R44, R58). -/

namespace Sys2Proof.Proofs

open Sys2Proof.Machine Sys2Proof.Safety

variable {s t u a b : State} {st first : MicroStep} {x : Option XferStep} {j k : Nat}

/-! ### A command with no move to come -/

/-- With no move to come, `k` block steps lead a running command from `s` to `t`. -/
def Leads (k : Nat) (s t : State) : Prop := ∀ n, runWhile busy (n + k) s = runWhile busy n t

theorem Leads.trans (h : Leads j s t) (h' : Leads k t u) : Leads (k + j) s u := fun n => by
  rw [← Nat.add_assoc, h, h']

theorem Leads.step {w : State} (hsched : s.sched = []) (hseq : s.seq = .run st x)
    (hw : microStep st x s = finish s w) (h : finish s w = t) : Leads 1 s t := fun n => by
  rw [runWhile_go (by rw [busy, hseq]), turn_nil hsched, blockStep_run hseq, hw, h]

/-- A micro-step that writes no register passes. -/
theorem Leads.pass (st : MicroStep) (hsched : s.sched = []) (hset : Settled s) (hseq : s.seq = .run st none)
    (hop : applyOp (commandOp st) s = s) (hnext : nextSeq st none s = afterStep st) :
    Leads 1 s { s with seq := afterStep st } :=
  .step (w := { s with seq := afterStep st }) hsched hseq (by rw [microStep, opAt, hop, hnext])
    (finish_of_same (b := s) (a := { s with seq := afterStep st }) hset rfl rfl)

theorem applyOp_sdaHigh_of_released (h : s.sdaPort = true) : applyOp .sdaHigh s = s := by rw [applyOp, ← h]

theorem applyOp_sclHigh_of_released (h : s.sclPort = true) : applyOp .sclHigh s = s := by rw [applyOp, ← h]

/-- Block steps that lead to the end of an accepted command are its run. -/
theorem issue_leads {f : Bool} {d : Byte} (hidle : s.seq = .idle) (h : Leads k (accept first f d s) t)
    (hend : t.seq = .idle) (hk : k ≤ 128) : issue first f d s = .next t := by
  have hbudget : k ≤ turnBudget (accept first f d s) := Nat.le_add_left_of_le hk
  obtain ⟨r, hr⟩ := Nat.exists_eq_add_of_le' hbudget
  rw [issue_idle hidle, runCommand, hr, h, runWhile_stop (by rw [busy, hend])]

/-! ### The lines of a configured master -/

/-- INIT has run, both lines are outputs, the peer is silent, and no move is to come. -/
def Driven (s : State) : Prop :=
  s.sched = [] ∧ s.en = true ∧ s.sdaDir = true ∧ s.sclDir = true ∧ s.peerSdaLow = false ∧ s.peerSclLow = false

theorem driven_of_boundary (hb : Boundary s) (hsched : s.sched = []) (hs : Silent s) : Driven s :=
  ⟨hsched, hb.en, hb.sdaDir, hb.sclDir, hs.sda, hs.scl⟩

theorem Driven.sched (h : Driven s) : s.sched = [] := h.1

theorem Driven.sclLine_eq (h : Driven s) : sclLine s = s.sclPort := by
  obtain ⟨-, -, -, hdir, -, hpeer⟩ := h
  exact sclLine_eq_sclPort hdir hpeer

theorem Driven.sdaLine_eq (h : Driven s) : sdaLine s = (s.sdaPort && s.ol) := by
  obtain ⟨-, hen, hdir, -, hpeer, -⟩ := h
  simp [sdaLine, masterSdaLow, hen, hdir, hpeer]

theorem Driven.settled (h : Driven s) (hclock : s.sclq = s.sclPort)
    (hlatch : s.sclPort = false → s.ol = s.dr.getLsbD 7) : Settled s := by
  refine ⟨hclock.trans h.sclLine_eq.symm, ?_⟩
  rintro (hen | hlow)
  · exact absurd (h.2.1.symm.trans hen) (by decide)
  · exact hlatch (h.sclLine_eq.symm.trans hlow)

/-! ### What a step does to the lines -/

/-- With the clock low before and after, the observer sees nothing on SDA. -/
theorem finish_of_low (hb : Driven b) (ha : Driven a) (hset : Settled a) (hlow : b.sclPort = false)
    (hlow' : a.sclPort = false) : finish b a = a := by
  rw [finish, settle_of_settled hset, observe, hb.sclLine_eq.trans hlow, ha.sclLine_eq.trans hlow']
  simp [observerStep]

/-- SDA falls while the clock is high: a START. -/
theorem finish_sda_fall (hb : Driven b) (ha : Driven a) (hset : Settled a) (hhigh : b.sclPort = true)
    (hhigh' : a.sclPort = true) (hport : b.sdaPort = true) (hol : b.ol = true) (hport' : a.sdaPort = false) :
    finish b a = { a with obsPending := none, obsTrace := a.obsTrace ++ [.start] } := by
  rw [finish, settle_of_settled hset, observe, hb.sclLine_eq, ha.sclLine_eq, hb.sdaLine_eq, ha.sdaLine_eq, hhigh,
    hhigh', hport, hol, hport']
  rfl

/-- The level latch lets SDA go while the clock is high: a STOP, unless the output latch still pulls it (R15, R181). -/
theorem finish_sda_release (hb : Driven b) (ha : Driven a) (hset : Settled a) (hhigh : b.sclPort = true)
    (hhigh' : a.sclPort = true) (hport : b.sdaPort = false) (hport' : a.sdaPort = true) :
    finish b a = { a with
      obsPending := if a.ol then none else a.obsPending
      obsTrace := a.obsTrace ++ if a.ol then [.stop] else [] } := by
  rw [finish, settle_of_settled hset, observe, hb.sclLine_eq, ha.sclLine_eq, hb.sdaLine_eq, ha.sdaLine_eq, hhigh,
    hhigh', hport, hport']
  cases a.ol <;> rfl

/-- The clock rises: the level of SDA enters DR, the latch keeps its bit, and a data bit is pending (R96, R97). -/
theorem finish_clock_rise {level : Bool} (hb : Driven b) (ha : Driven a) (hlow : b.sclPort = false)
    (hclock : a.sclq = false) (hhigh : a.sclPort = true) (hlevel : (a.sdaPort && a.ol) = level) :
    finish b a = { a with dr := shiftIn a.dr level, sclq := true, obsPending := some level } := by
  have hline : sclLine a = true := ha.sclLine_eq.trans hhigh
  have hedge : risingEdge a = true := (risingEdge_iff a).mpr ⟨ha.2.1, hclock, hline⟩
  have hsda : sdaLine a = level := ha.sdaLine_eq.trans hlevel
  have hsettle : settle a = { a with dr := shiftIn a.dr level, sclq := true } := by
    rw [settle_eq, settle_dr, if_pos hedge, settle_ol_of_high ha.2.1 hline, settle_sclq, hline, hsda]
  have hsda' : sdaLine (settle a) = level := by
    rw [sdaLine, masterSdaLow_settle_of_high hline, settle_peerSdaLow, ← hsda, sdaLine]
  rw [finish, observe, sclLine_settle, hsda', hb.sclLine_eq, hlow, hline, hsettle]
  simp [observerStep]

/-- The clock falls: the latch shows DR[7], and a pending data bit is emitted. -/
theorem finish_clock_fall {trace : List BusEvent} (hb : Driven b) (ha : Driven a) (hhigh : b.sclPort = true)
    (hlow : a.sclPort = false) (htrace : a.obsTrace ++ a.obsPending.toList.map BusEvent.bit = trace) :
    finish b a = { a with ol := a.dr.getLsbD 7, sclq := false, obsPending := none, obsTrace := trace } := by
  have hline : sclLine a = false := ha.sclLine_eq.trans hlow
  have hsettle : settle a = { a with ol := a.dr.getLsbD 7, sclq := false } := by
    obtain ⟨hdr, hol⟩ := settle_of_low hline
    rw [settle_eq, hdr, hol, settle_sclq, hline]
  rw [finish, observe, sclLine_settle, hb.sclLine_eq, hhigh, hline, hsettle, ← htrace]
  cases a.obsPending <;> rfl

end Sys2Proof.Proofs
end

section
/-! SUPPORT. START and STOP on a bus that the master drives and no other device does
(43_protocol_operations.md R123, R124, R125; 70_reset_and_hazards.md R181). -/

namespace Sys2Proof.Proofs

open Sys2Proof.Machine Sys2Proof.Safety

variable {s t u : State}

/-! ### START -/

/-- START from its wait on, with both lines high: SDA falls, which is the START condition, and then the clock. -/
theorem leads_start_of_high (hd : Driven s) (hset : Settled s) (hseq : s.seq = .run .st2 none)
    (hscl : s.sclPort = true) (hsda : s.sdaPort = true) (hol : s.ol = true) :
    Leads 6 s { s with
      seq := .idle, sdaPort := true, sclPort := false, sclq := false, ol := s.dr.getLsbD 7
      obsPending := none, obsTrace := s.obsTrace ++ [.start] } := by
  have hhigh : sclLine s = true := hd.sclLine_eq.trans hscl
  have hst2 : Leads 1 s { s with seq := .run .st3 none } := .pass .st2 hd.sched hset hseq rfl (if_pos hhigh)
  have hst3 : Leads 1 { s with seq := .run .st3 none } { s with seq := .run .st4 none } :=
    .pass .st3 hd.sched hset rfl rfl rfl
  let pulled : State := { s with
    seq := .run .st5 none, sdaPort := false, obsPending := none, obsTrace := s.obsTrace ++ [.start] }
  have hpulled : Settled pulled :=
    Driven.settled hd (hset.1.trans hd.sclLine_eq) fun h => absurd (hscl.symm.trans h) (by decide)
  have hst4 : Leads 1 { s with seq := .run .st4 none } pulled :=
    .step (w := { s with seq := .run .st5 none, sdaPort := false }) hd.sched rfl rfl
      (finish_sda_fall hd hd hpulled hscl hscl hsda hol rfl)
  have hst5 : Leads 1 pulled { pulled with seq := .run .st6 none } := .pass .st5 hd.sched hpulled rfl rfl rfl
  let low : State := { pulled with seq := .run .st7 none, sclPort := false, sclq := false, ol := s.dr.getLsbD 7 }
  have hst6 : Leads 1 { pulled with seq := .run .st6 none } low :=
    .step (w := { pulled with seq := .run .st7 none, sclPort := false }) hd.sched rfl rfl
      (finish_clock_fall hd hd hscl rfl (List.append_nil _))
  have hst7 : Leads 1 low { low with seq := .idle, sdaPort := true } :=
    .step hd.sched rfl rfl (finish_of_low hd hd (Driven.settled hd rfl fun _ => rfl) rfl rfl)
  exact hst2.trans <| hst3.trans <| hst4.trans <| hst5.trans <| hst6.trans hst7

/-- START with both lines high: one START condition, and the clock is left low (R123). -/
theorem start_of_high (hd : Driven s) (hset : Settled s) (hidle : s.seq = .idle) (hscl : s.sclPort = true)
    (hsda : s.sdaPort = true) (hol : s.ol = true) :
    exec .start s = .next { s with
      sclPort := false, sclq := false, ol := s.dr.getLsbD 7, opdF := false, opdD := 0x00#8
      obsPending := none, obsTrace := s.obsTrace ++ [.start] } := by
  let first : State := accept .st0 false 0x00#8 s
  have hst0 : Leads 1 first { first with seq := .run .st1 none } :=
    .pass .st0 hd.sched hset rfl (applyOp_sdaHigh_of_released hsda) rfl
  have hst1 : Leads 1 { first with seq := .run .st1 none } { first with seq := .run .st2 none } :=
    .pass .st1 hd.sched hset rfl (applyOp_sclHigh_of_released hscl) rfl
  have hrest := leads_start_of_high (s := { first with seq := .run .st2 none }) hd hset rfl hscl hsda hol
  refine (issue_leads hidle (hst0.trans (hst1.trans hrest)) rfl (by decide)).trans ?_
  simp [first, accept, loadOperands, hsda, hidle]

/-- Settles O36: ST0 and ST1 find both lines released. -/
theorem startOnIdleBus : Obligations.StartOnIdleBus := fun _ hb hset hsched hsilent hscl hol =>
  start_of_high (driven_of_boundary hb hsched hsilent) hset hb.idle hscl hb.sdaPort hol

/-- After a shift the latch will show what was DR[6]. -/
theorem getLsbD_shiftIn (d : Byte) (level : Bool) : (shiftIn d level).getLsbD 7 = d.getLsbD 6 := by
  revert d level; decide

/-- Settles O37: ST1 lets the clock rise with SDA high. -/
theorem repeatedStart : Obligations.RepeatedStart := by
  intro s hb hset hsched hsilent hscl hbit
  have hd : Driven s := driven_of_boundary hb hsched hsilent
  have hlow : sclLine s = false := hd.sclLine_eq.trans hscl
  have hol : s.ol = true := (hset.2 (.inr hlow)).trans hbit
  let first : State := accept .st0 false 0x00#8 s
  have hst0 : Leads 1 first { first with seq := .run .st1 none } :=
    .pass .st0 hd.sched hset rfl (applyOp_sdaHigh_of_released hb.sdaPort) rfl
  let high : State := { first with
    seq := .run .st2 none, sclPort := true, sclq := true, dr := shiftIn s.dr true, obsPending := some true }
  have hst1 : Leads 1 { first with seq := .run .st1 none } high :=
    .step (w := { first with seq := .run .st2 none, sclPort := true }) hd.sched rfl rfl
      (finish_clock_rise hd hd hscl (hset.1.trans hlow) rfl (Bool.and_eq_true_iff.mpr ⟨hb.sdaPort, hol⟩))
  have hrest := leads_start_of_high (s := high) hd (Driven.settled hd rfl nofun) rfl rfl hb.sdaPort hol
  refine (issue_leads hb.idle (hst0.trans (hst1.trans hrest)) rfl (by decide)).trans ?_
  have hshift : s.dr.extractLsb' 0 7 ++ 1#1 = shiftIn s.dr true := rfl
  simp only [high, first, accept, loadOperands, getLsbD_shiftIn, hshift, hb.idle, hb.sdaPort, hscl, hset.1.trans hlow]

/-! ### STOP -/

/-- STOP from its wait on, with the clock high and SDA pulled by the level latch: SDA rises, which is the STOP
condition, unless the output latch still pulls it. -/
theorem leads_stop_of_high (hd : Driven s) (hset : Settled s) (hseq : s.seq = .run .sp2 none)
    (hscl : s.sclPort = true) (hsda : s.sdaPort = false) :
    Leads 4 s { s with
      seq := .idle, sdaPort := true, obsPending := if s.ol then none else s.obsPending
      obsTrace := s.obsTrace ++ if s.ol then [.stop] else [] } := by
  have hhigh : sclLine s = true := hd.sclLine_eq.trans hscl
  have hsp2 : Leads 1 s { s with seq := .run .sp3 none } := .pass .sp2 hd.sched hset hseq rfl (if_pos hhigh)
  have hsp3 : Leads 1 { s with seq := .run .sp3 none } { s with seq := .run .sp4 none } :=
    .pass .sp3 hd.sched hset rfl rfl rfl
  have hsettled : ∀ pending trace, Settled { s with
      seq := .run .sp5 none, sdaPort := true, obsPending := pending, obsTrace := trace } := fun _ _ =>
    Driven.settled hd (hset.1.trans hd.sclLine_eq) fun h => absurd (hscl.symm.trans h) (by decide)
  let released : State := { s with
    seq := .run .sp5 none, sdaPort := true, obsPending := if s.ol then none else s.obsPending
    obsTrace := s.obsTrace ++ if s.ol then [.stop] else [] }
  have hsp4 : Leads 1 { s with seq := .run .sp4 none } released :=
    .step (w := { s with seq := .run .sp5 none, sdaPort := true }) hd.sched rfl rfl
      (finish_sda_release hd hd (hsettled _ _) hscl hscl hsda rfl)
  have hsp5 : Leads 1 released { released with seq := .idle } := .pass .sp5 hd.sched (hsettled _ _) rfl rfl rfl
  exact hsp2.trans <| hsp3.trans <| hsp4.trans hsp5

/-- STOP with the clock low: the clock rises with SDA low, which shifts a 0 into DR, and SDA rises as far as the output
latch lets it (R124). -/
theorem stop_of_low (hd : Driven s) (hset : Settled s) (hidle : s.seq = .idle) (hscl : s.sclPort = false)
    (hsda : s.sdaPort = true) :
    exec .stop s = .next { s with
      sclPort := true, sclq := true, dr := shiftIn s.dr false, opdF := false, opdD := 0x00#8
      obsPending := if s.ol then none else some false, obsTrace := s.obsTrace ++ if s.ol then [.stop] else [] } := by
  have hlow : sclLine s = false := hd.sclLine_eq.trans hscl
  let first : State := accept .sp0 false 0x00#8 s
  let pulled : State := { first with seq := .run .sp1 none, sdaPort := false }
  have hsp0 : Leads 1 first pulled :=
    .step hd.sched rfl rfl (finish_of_low hd hd hset hscl hscl)
  let high : State := { pulled with
    seq := .run .sp2 none, sclPort := true, sclq := true, dr := shiftIn s.dr false, obsPending := some false }
  have hsp1 : Leads 1 pulled high :=
    .step (w := { pulled with seq := .run .sp2 none, sclPort := true }) hd.sched rfl rfl
      (finish_clock_rise hd hd hscl (hset.1.trans hlow) rfl rfl)
  have hrest := leads_stop_of_high (s := high) hd (Driven.settled hd rfl nofun) rfl rfl rfl
  refine (issue_leads hidle (hsp0.trans (hsp1.trans hrest)) rfl (by decide)).trans ?_
  simp only [high, pulled, first, accept, loadOperands, hidle, hsda]

/-- Settles O38: SDA is released by the output latch, so its rise at SP4 reaches the wire. -/
theorem stopAfterTransfer : Obligations.StopAfterTransfer := by
  intro s hb hset hsched hsilent hscl hbit
  have hd : Driven s := driven_of_boundary hb hsched hsilent
  have hol : s.ol = true := (hset.2 (.inr (hd.sclLine_eq.trans hscl))).trans hbit
  have hstop := stop_of_low hd hset hb.idle hscl hb.sdaPort
  rw [hol] at hstop
  exact hstop

/-! ### Pairs of START and STOP -/

/-- A pair of START and STOP from an idle bus: a START, a 0 into DR, and a STOP unless the bit that comes to the output
latch when the clock falls is 0 (R125, R181). -/
theorem startStopPairs_one (hd : Driven s) (hset : Settled s) (hidle : s.seq = .idle) (hscl : s.sclPort = true)
    (hsda : s.sdaPort = true) (hol : s.ol = true) :
    startStopPairs 1 s = .next { s with
      dr := shiftIn s.dr false, ol := s.dr.getLsbD 7, opdF := false, opdD := 0x00#8
      obsPending := if s.dr.getLsbD 7 then none else some false
      obsTrace := s.obsTrace ++ .start :: if s.dr.getLsbD 7 then [.stop] else [] } := by
  have hclock : s.sclq = true := hset.1.trans (hd.sclLine_eq.trans hscl)
  have hstart := start_of_high hd hset hidle hscl hsda hol
  have hstop := stop_of_low (s := { s with
    sclPort := false, sclq := false, ol := s.dr.getLsbD 7, opdF := false, opdD := 0x00#8
    obsPending := none, obsTrace := s.obsTrace ++ [.start] }) hd (Driven.settled hd rfl fun _ => rfl) hidle rfl hsda
  rw [startStopPairs, hstart]
  dsimp only
  rw [hstop]
  simp [startStopPairs, hclock, hscl]

/-- Pairs one after the other. -/
theorem startStopPairs_add {m : Nat} (h : startStopPairs m s = .next t) (n : Nat) :
    startStopPairs (m + n) s = startStopPairs n t := by
  induction m generalizing s with
  | zero => cases h; rw [Nat.zero_add]
  | succ m ih =>
    rw [Nat.add_right_comm]
    rw [startStopPairs] at h ⊢
    split at h
    · split at h
      · exact ih h
      · next hno => exact absurd h (hno t)
    · next hno => exact absurd h (hno t)

/-- After `n` of the first eight pairs the bus is idle again, and `n` zeros stand in DR. -/
structure AfterPairs (n : Nat) (s : State) : Prop where
  driven : Driven s
  settled : Settled s
  idle : s.seq = .idle
  sclPort : s.sclPort = true
  sdaPort : s.sdaPort = true
  ol : s.ol = true
  dr : s.dr = 0xFF#8 <<< n

theorem zeros_walk :
    ∀ n < 8, (0xFF#8 <<< n).getLsbD 7 = true ∧ shiftIn (0xFF#8 <<< n) false = 0xFF#8 <<< (n + 1) := by decide

/-- The next pair shifts a zero in, and the latch takes the bit that the zeros have not yet reached. -/
theorem AfterPairs.next {n : Nat} (h : AfterPairs n s) (hn : n < 8) :
    ∃ t, startStopPairs 1 s = .next t ∧ AfterPairs (n + 1) t ∧ t.obsTrace = s.obsTrace ++ [.start, .stop] := by
  obtain ⟨hbit, hshift⟩ := zeros_walk n hn
  obtain ⟨hd, hset, hidle, hscl, hsda, hol, hdr⟩ := h
  have hpair := startStopPairs_one hd hset hidle hscl hsda hol
  rw [hdr, hbit, hshift] at hpair
  have hclock : s.sclq = s.sclPort := hset.1.trans hd.sclLine_eq
  exact ⟨_, hpair,
    ⟨hd, Driven.settled hd hclock fun hlow => absurd (hscl.symm.trans hlow) (by decide), hidle, hscl, hsda, rfl, rfl⟩,
    rfl⟩

/-- Up to eight pairs reach the wire. -/
theorem AfterPairs.pairs (h : AfterPairs 0 s) {n : Nat} (hn : n ≤ 8) :
    ∃ t, startStopPairs n s = .next t ∧ AfterPairs n t ∧
      t.obsTrace = s.obsTrace ++ (List.replicate n [BusEvent.start, BusEvent.stop]).flatten := by
  induction n with
  | zero => exact ⟨s, rfl, h, (List.append_nil _).symm⟩
  | succ n ih =>
    obtain ⟨u, hu, hafter, htrace⟩ := ih (Nat.le_of_succ_le hn)
    obtain ⟨t, ht, hafter', htrace'⟩ := hafter.next hn
    refine ⟨t, (startStopPairs_add hu 1).trans ht, hafter', ?_⟩
    rw [htrace', htrace, List.replicate_succ', List.flatten_concat, List.append_assoc]

/-- The ninth pair finds a zero in the output latch, which holds SDA low where the STOP should come (R181). -/
theorem AfterPairs.ninth (h : AfterPairs 8 s) :
    ∃ t, startStopPairs 1 s = .next t ∧ Driven t ∧ t.sclPort = true ∧ t.ol = false ∧ t.dr = 0x00#8 ∧
      t.obsTrace = s.obsTrace ++ [.start] := by
  obtain ⟨hd, hset, hidle, hscl, hsda, hol, hdr⟩ := h
  have hpair := startStopPairs_one hd hset hidle hscl hsda hol
  rw [hdr, show (0xFF#8 <<< 8).getLsbD 7 = false by decide] at hpair
  exact ⟨_, hpair, hd, hscl, rfl, show shiftIn (0xFF#8 <<< 8) false = 0x00#8 by decide, rfl⟩

/-- Settles O40: each pair moves a zero on, and the ninth finds one in the output latch. -/
theorem startStopPairsWalkZeros : Obligations.StartStopPairsWalkZeros := by
  intro s hb hset hbus hsched hsilent hdr
  have hol : s.ol = true := hbus.released.resolve_right (by simp [hb.en])
  have hstart : AfterPairs 0 s :=
    ⟨driven_of_boundary hb hsched hsilent, hset, hb.idle, hbus.sclPort, hb.sdaPort, hol, hdr⟩
  refine ⟨fun n hn => ?_, ?_⟩
  · obtain ⟨t, ht, h, htrace⟩ := hstart.pairs hn
    exact ⟨t, ht, h.dr, h.ol, h.driven.sclLine_eq.trans h.sclPort,
      h.driven.sdaLine_eq.trans (Bool.and_eq_true_iff.mpr ⟨h.sdaPort, h.ol⟩), htrace⟩
  · obtain ⟨u, hu, hafter, htrace⟩ := hstart.pairs (le_refl 8)
    obtain ⟨t, ht, hd, hscl, hol', hdr', htrace'⟩ := hafter.ninth
    refine ⟨t, (startStopPairs_add hu 1).trans ht, hdr', hol', hd.sclLine_eq.trans hscl, ?_, ?_⟩
    · rw [hd.sdaLine_eq, hol', Bool.and_false]
    · rw [htrace', htrace]

end Sys2Proof.Proofs
end

section
/-! SUPPORT. A first INIT (43_protocol_operations.md R120). -/

namespace Sys2Proof.Proofs

open Sys2Proof.Machine Sys2Proof.Safety

variable {s t a b : State} {st : MicroStep}

/-- Both level latches are released and so is the output latch of an enabled unit: the master pulls no line, whatever
the directions are (R15, R33). -/
def Unpulled (s : State) : Prop := s.sdaPort = true ∧ s.sclPort = true ∧ (s.en = true → s.ol = true)

theorem Unpulled.sclLine_eq (h : Unpulled s) : sclLine s = !s.peerSclLow := sclLine_eq_not_peer h.2.1

theorem Unpulled.sdaLine_eq (h : Unpulled s) : sdaLine s = !s.peerSdaLow := by
  obtain ⟨hport, -, hlatch⟩ := h
  cases hen : s.en with
  | false => simp [sdaLine, masterSdaLow, hport, hen]
  | true => simp [sdaLine, masterSdaLow, hport, hen, hlatch hen]

/-- Between states in which the master pulls no line, a step of the block moves none. -/
theorem finish_of_unpulled (hb : Unpulled b) (ha : Unpulled a) (hset : Settled a) (hscl : b.peerSclLow = a.peerSclLow)
    (hsda : b.peerSdaLow = a.peerSdaLow) : finish b a = a :=
  finish_of_same hset (by rw [hb.sclLine_eq, ha.sclLine_eq, hscl]) (by rw [hb.sdaLine_eq, ha.sdaLine_eq, hsda])

/-- While the unit is not enabled the latch follows DR. -/
theorem settle_of_disabled (he : s.en = false) :
    settle s = { s with ol := s.dr.getLsbD 7, sclq := sclLine s } := by
  rw [settle_eq, settle_ol, settle_dr, settle_sclq]
  simp [risingEdge, he]

/-- The unit is not enabled, and both level latches are released. -/
def Disabled (s : State) : Prop := s.en = false ∧ s.sdaPort = true ∧ s.sclPort = true

theorem Disabled.unpulled (h : Disabled s) : Unpulled s :=
  ⟨h.2.1, h.2.2, fun hen => absurd (h.1.symm.trans hen) (by decide)⟩

/-- Before INIT has enabled the unit its steps settle the latch and the clock level, and move no line. -/
theorem finish_of_disabled {latch : Bool} (hb : Disabled b) (ha : Disabled a) (hlatch : a.dr.getLsbD 7 = latch)
    (hscl : b.peerSclLow = a.peerSclLow) (hsda : b.peerSdaLow = a.peerSdaLow) :
    finish b a = { a with ol := latch, sclq := !a.peerSclLow } := by
  have hsettle : settle a = { a with ol := latch, sclq := !a.peerSclLow } := by
    rw [settle_of_disabled ha.1, hlatch, ha.unpulled.sclLine_eq]
  have hsettled : Disabled (settle a) := hsettle ▸ ha
  rw [finish, ← hsettle, observe_of_same]
  · rw [hb.unpulled.sclLine_eq, hsettled.unpulled.sclLine_eq, settle_peerSclLow, hscl]
  · rw [hb.unpulled.sdaLine_eq, hsettled.unpulled.sdaLine_eq, settle_peerSdaLow, hsda]

/-- IN0 to IN3: both lines become outputs, and stay as they are. -/
theorem leads_init_outputs (hoff : Disabled s) (hsched : s.sched = []) (hseq : s.seq = .run .in0 none) :
    Leads 4 s { s with
      seq := .run .in4 none, sdaDir := true, sclDir := true, ol := s.dr.getLsbD 7, sclq := !s.peerSclLow } := by
  let output : State := { s with
    seq := .run .in1 none, sdaDir := true, ol := s.dr.getLsbD 7, sclq := !s.peerSclLow }
  have hin0 : Leads 1 s output :=
    .step (w := { s with seq := .run .in1 none, sdaDir := true }) hsched hseq rfl
      (finish_of_disabled hoff hoff rfl rfl rfl)
  let outputs : State := { output with seq := .run .in2 none, sclDir := true }
  have hin1 : Leads 1 output outputs :=
    .step (w := outputs) hsched rfl rfl (finish_of_disabled (b := output) hoff hoff rfl rfl rfl)
  have hset : Settled outputs := ⟨(Unpulled.sclLine_eq (s := outputs) (Disabled.unpulled hoff)).symm, fun _ => rfl⟩
  have hin2 : Leads 1 outputs { outputs with seq := .run .in3 none } :=
    .pass .in2 hsched hset rfl (applyOp_sdaHigh_of_released hoff.2.1) rfl
  have hin3 : Leads 1 { outputs with seq := .run .in3 none } { outputs with seq := .run .in4 none } :=
    .pass .in3 hsched hset rfl (applyOp_sclHigh_of_released hoff.2.2) rfl
  exact hin0.trans <| hin1.trans <| hin2.trans hin3

/-- IN4 to IN6: DR is filled before the unit is enabled, so the output latch does not pull when it is. -/
theorem leads_init_enable (hoff : Disabled s) (hsched : s.sched = []) (hseq : s.seq = .run .in4 none) :
    Leads 3 s { s with
      seq := .idle, dr := 0xFF#8, ol := true, cf := false, cnt := 0#4, en := true, sclq := !s.peerSclLow } := by
  have hone : (0xFF#8).getLsbD 7 = true := by decide
  let filled : State := { s with
    seq := .run .in5 none, dr := 0xFF#8, ol := true, sclq := !s.peerSclLow }
  have hin4 : Leads 1 s filled :=
    .step (w := { s with seq := .run .in5 none, dr := 0xFF#8 }) hsched hseq rfl
      (finish_of_disabled hoff hoff hone rfl rfl)
  let enabled : State := { filled with seq := .run .in6 none, en := true }
  have hfree : Unpulled enabled := ⟨hoff.2.1, hoff.2.2, fun _ => rfl⟩
  have hset : Settled enabled := ⟨hfree.sclLine_eq.symm, fun _ => hone.symm⟩
  have hin5 : Leads 1 filled enabled :=
    .step hsched rfl rfl (finish_of_unpulled (b := filled) (Disabled.unpulled hoff) hfree hset rfl rfl)
  let armed : State := { enabled with seq := .idle, cf := false, cnt := 0#4 }
  have hin6 : Leads 1 enabled armed := by
    refine .step hsched rfl ?_ (finish_of_unpulled (a := armed) hfree hfree hset rfl rfl)
    rw [microStep, opAt, commandOp, applyOp, writeStatus_initStatus]
    rfl
  exact hin4.trans <| hin5.trans hin6

/-- Settles O33: with the latches released no step of INIT moves a line. -/
theorem firstInit : Obligations.FirstInit := by
  intro s hidle hsched hen hsda hscl
  have hoff : Disabled s := ⟨hen, hsda, hscl⟩
  have houtputs := leads_init_outputs (s := accept .in0 false 0x00#8 s) hoff hsched rfl
  refine (issue_leads hidle (houtputs.trans (leads_init_enable hoff hsched rfl)) rfl (by decide)).trans ?_
  simp [accept, loadOperands, hidle]

end Sys2Proof.Proofs
end

section
/-! SUPPORT. The turns of a byte operation: what its micro-steps and its calls of the Transfer Primitive reach, whatever
the peer does in between (44_byte_operations.md R135, R136, R137; 42_transfer_primitive.md R114). -/

namespace Sys2Proof.Proofs

open Sys2Proof.Machine Sys2Proof.Safety

variable {s t u : State} {st : MicroStep} {m : Byte} {N M j k : Nat} {P Q R : State → Prop}

/-! ### Turns of a running command -/

theorem turns_add (j k : Nat) (s : State) : turns (j + k) s = turns k (turns j s) := by
  induction j generalizing s with
  | zero => rw [Nat.zero_add]; rfl
  | succ j ih => rw [Nat.add_right_comm]; exact ih (turn s)

/-- Turns of a running command lead from `s` to a state with `Q`: at most `N`, and one more for each move they take from
the coming ones. -/
def Reaches (N : Nat) (Q : State → Prop) (s : State) : Prop :=
  ∃ k, (∀ j < k, busy (turns j s) = true) ∧ Q (turns k s) ∧ k + (turns k s).sched.length ≤ s.sched.length + N

theorem Reaches.of_done (h : Q s) : Reaches 0 Q s :=
  ⟨0, fun _ hj => absurd hj (Nat.not_lt_zero _), h, (Nat.zero_add _).le⟩

theorem Reaches.mono (h : Reaches N Q s) (hQ : ∀ t, Q t → R t) : Reaches N R s := by
  obtain ⟨k, hgo, hend, hk⟩ := h
  exact ⟨k, hgo, hQ _ hend, hk⟩

theorem Reaches.trans (h : Reaches N Q s) (h' : ∀ t, Q t → Reaches M R t) : Reaches (N + M) R s := by
  obtain ⟨j, hgo, hmid, hj⟩ := h
  obtain ⟨k, hgo', hend, hk⟩ := h' _ hmid
  refine ⟨j + k, fun i hi => ?_, by rwa [turns_add], by rw [turns_add]; omega⟩
  rcases Nat.lt_or_ge i j with hlt | hge
  · exact hgo i hlt
  · obtain ⟨r, rfl⟩ := Nat.exists_eq_add_of_le hge
    rw [turns_add]
    exact hgo' r (by omega)

/-- What every busy turn keeps stands where the turns lead. -/
theorem Reaches.keeping (h : Reaches N Q s) (hP : P s) (hturn : ∀ v, P v → busy v = true → P (turn v)) :
    Reaches N (fun t => Q t ∧ P t) s := by
  obtain ⟨k, hgo, hend, hk⟩ := h
  refine ⟨k, hgo, ⟨hend, ?_⟩, hk⟩
  clear hend hk
  induction k generalizing s with
  | zero => exact hP
  | succ k ih => exact ih (hturn s hP (hgo 0 k.succ_pos)) fun j hj => hgo (j + 1) (Nat.succ_lt_succ hj)

/-- The state that is reached is some number of turns away. -/
theorem Reaches.counted (h : Reaches N Q s) : Reaches N (fun t => Q t ∧ ∃ k, t = turns k s) s := by
  obtain ⟨k, hgo, hend, hk⟩ := h
  exact ⟨k, hgo, ⟨hend, k, rfl⟩, hk⟩

/-- The budget of a command is enough for what is reached within it (log entry 3). -/
theorem Reaches.runCommand_eq (h : Reaches N Q s) (hN : N ≤ 128) :
    ∃ u r, Q u ∧ runCommand s = runWhile busy r u := by
  obtain ⟨k, hgo, hend, hk⟩ := h
  obtain ⟨r, hr⟩ := Nat.exists_eq_add_of_le (show k ≤ turnBudget s by unfold turnBudget; omega)
  exact ⟨_, r, hend, by rw [runCommand, hr, runWhile_turns_add hgo]⟩

theorem Reaches.issue_ends {f : Bool} {d : Byte} (h : Reaches N Q (accept st f d s)) (hidle : s.seq = .idle)
    (hN : N ≤ 128) (hQ : ∀ t, Q t → t.seq = .idle) : ∃ t, issue st f d s = .next t ∧ Q t := by
  obtain ⟨u, r, hu, hrun⟩ := h.runCommand_eq hN
  rw [runWhile_stop (by rw [busy, hQ u hu])] at hrun
  exact ⟨u, by rw [issue_idle hidle, hrun], hu⟩

/-! ### One micro-step, whenever the block comes to it -/

/-- A property that the peer's moves keep, and that does not look at the moves to come. -/
structure KeptByPeer (P : State → Prop) : Prop where
  peer : ∀ a b v, P v → P (peerStep a b v)
  sched : ∀ moves v, P v → P { v with sched := moves }

/-- The peer moves as often as it likes, and then the block takes its micro-step. -/
theorem reaches_microStep (hs : s.seq = .run st none) (hn : noReset s.sched = true) (K : KeptByPeer P) (hP : P s) :
    Reaches 1 (fun t => ∃ v, P v ∧ t = microStep st none v) s := by
  induction hlen : s.sched.length using Nat.strong_induction_on generalizing s with
  | _ n ih =>
    have hb : busy s = true := by rw [busy, hs]
    have hone : ∀ j < 1, busy (turns j s) = true := by
      intro j hj
      obtain rfl : j = 0 := by omega
      exact hb
    rcases turn_cases_of_noReset hn hb with ⟨e, -⟩ | ⟨rest, hsched, e⟩ | ⟨a, b, rest, hsched, e⟩
    · refine ⟨1, hone, ⟨s, hP, e.trans (blockStep_run hs)⟩, ?_⟩
      change 1 + (turn s).sched.length ≤ _
      rw [e, blockStep_sched, Nat.add_comm]
    · refine ⟨1, hone, ⟨_, K.sched rest s hP, e.trans (blockStep_run hs)⟩, ?_⟩
      change 1 + (turn s).sched.length ≤ _
      rw [e, blockStep_sched, hsched, List.length_cons]
      dsimp only
      omega
    · have hless : (turn s).sched.length + 1 = s.sched.length := by rw [e, peerStep_sched, hsched, List.length_cons]
      have hseq : (turn s).seq = .run st none := by rw [e, peerStep_seq]; exact hs
      have hkept : P (turn s) := by rw [e]; exact K.peer a b _ (K.sched rest s hP)
      obtain ⟨k, hgo, hend, hk⟩ := ih _ (by omega) hseq (noReset_turn hn) hkept rfl
      refine ⟨k + 1, fun j hj => ?_, hend, ?_⟩
      · cases j with
        | zero => exact hb
        | succ j => exact hgo j (Nat.lt_of_succ_lt_succ hj)
      · change k + 1 + (turns k (turn s)).sched.length ≤ _
        omega

theorem keptByPeer_regs (R : State) : KeptByPeer fun v => regs v = R where
  peer a b v h := (regs_peerStep a b v).trans h
  sched _ _ h := h

/-- A micro-step that does not call leaves the registers that its micro-operation makes of what it found. -/
theorem regs_commandStep {v : State} (st : MicroStep) (h : regs v = regs s) :
    regs (microStep st none v) = regs (applyOp (commandOp st) s) := by
  rw [regs_microStep, opAt, ← regs_applyOp (commandOp_ne_readDr st), h, regs_applyOp (commandOp_ne_readDr st)]

/-- One step of a micro-program that neither waits nor calls. -/
theorem reaches_step (hs : s.seq = .run st none) (hn : noReset s.sched = true)
    (hnext : ∀ v, nextSeq st none v = afterStep st) :
    Reaches 1 (fun t => t.seq = afterStep st ∧ regs t = regs (applyOp (commandOp st) s)) s := by
  refine (reaches_microStep hs hn (keptByPeer_regs _) rfl).mono ?_
  rintro t ⟨v, hv, rfl⟩
  exact ⟨(microStep_seq v st none).trans (hnext v), regs_commandStep st hv⟩

/-! ### After a transfer -/

/-- With the clock held low no move disturbs what a transfer leaves (R113). -/
theorem afterByte_finish {a b : State} (h : AfterByte a) (hd : a.sclDir = true) : AfterByte (finish b a) := by
  obtain ⟨hport, hdr, -, hcf, hcnt⟩ := h
  have hlow : sclLine a = false := by simp [sclLine, masterSclLow, hd, hport]
  obtain ⟨hdr', hol'⟩ := settle_of_low hlow
  exact {
    sclPort := (finish_sclPort _ _).trans hport
    dr := (finish_dr _ _).trans (hdr'.trans hdr)
    ol := (finish_ol _ _).trans (hol'.trans (by rw [hdr]; decide))
    cf := (finish_cf _ _).trans hcf
    cnt := (finish_cnt _ _).trans hcnt }

theorem keptByPeer_afterByte (R : State) :
    KeptByPeer fun v => regs v = R ∧ AfterByte v ∧ v.sclDir = true where
  peer a b v h := by
    obtain ⟨hregs, hafter, hd⟩ := h
    obtain ⟨hport, hdr, hol, hcf, hcnt⟩ := hafter
    exact ⟨(regs_peerStep a b v).trans hregs,
      afterByte_finish (a := { v with peerSdaLow := a, peerSclLow := b }) ⟨hport, hdr, hol, hcf, hcnt⟩ hd,
      (finish_sclDir _ _).trans hd⟩
  sched _ _ h := ⟨h.1, ⟨h.2.1.sclPort, h.2.1.dr, h.2.1.ol, h.2.1.cf, h.2.1.cnt⟩, h.2.2⟩

/-- A step after a transfer that writes none of the registers the transfer left. -/
theorem reaches_step_afterByte (hs : s.seq = .run st none) (hn : noReset s.sched = true)
    (hnext : ∀ v, nextSeq st none v = afterStep st) (hafter : AfterByte s) (hd : s.sclDir = true)
    (hkeep : ∀ v q, AfterByte v → AfterByte { applyOp (commandOp st) v with seq := q }) :
    Reaches 1 (fun t => t.seq = afterStep st ∧ regs t = regs (applyOp (commandOp st) s) ∧ AfterByte t) s := by
  refine (reaches_microStep hs hn (keptByPeer_afterByte _) ⟨rfl, hafter, hd⟩).mono ?_
  rintro t ⟨v, ⟨hv, hafter', hd'⟩, rfl⟩
  exact ⟨(microStep_seq v st none).trans (hnext v), regs_commandStep st hv,
    afterByte_finish (hkeep v _ hafter') (applyOp_sclDir_of_sclDir _ hd')⟩

/-! ### One call -/

/-- What a call needs to return: the unit is enabled, the clock line is an output, and the peer releases it in the end
(R112, R114). -/
structure Ready (s : State) : Prop where
  en : s.en = true
  sclDir : s.sclDir = true
  clock : ClockReleased s

theorem ready_turn (h : Ready s) (hb : busy s = true) : Ready (turn s) where
  en := kept_en.turn (fun rest hs => by simpa [hs, noReset] using h.clock.noReset) h.en
  sclDir := kept_sclDir.turn (fun rest hs => by simpa [hs, noReset] using h.clock.noReset) h.sclDir
  clock := clockReleased_turn h.clock hb

theorem Reaches.ready (h : Reaches N Q s) (hr : Ready s) : Reaches N (fun t => Q t ∧ Ready t) s :=
  h.keeping hr fun _ => ready_turn

/-- A call keeps the frame of R113 for as long as it runs. -/
theorem Returns.framed (h : Returns N Q s) (hn : noReset s.sched = true) :
    Returns N (fun t => Q t ∧ XferFrame s t) s := by
  obtain ⟨k, hgo, hend, hk⟩ := h
  refine ⟨k, hgo, ⟨hend, ?_⟩, hk⟩
  clear hend hk
  induction k generalizing s with
  | zero => exact xferFrame_sched s.sched s
  | succ k ih =>
    exact (xferFrame_turn (hgo 0 k.succ_pos) hn).trans
      (ih (noReset_turn hn) fun j hj => hgo (j + 1) (Nat.succ_lt_succ hj))

theorem xferFrame_of_regs_eq (h : regs t = regs s) : XferFrame s t := by
  obtain ⟨hsdaDir, hsclDir, hsdaPort, -, -, -, hen, -, hopdF, hopdD, -, hrbuf, hres⟩ := registers_of_regs_eq h
  exact ⟨⟨hen, hsdaDir, hsclDir, hsdaPort⟩, hopdF, hopdD, hrbuf, hres⟩

/-- A micro-step that calls the primitive comes to its return, after at most 52 block steps inside (R112, R113,
R114). -/
theorem reaches_call (hop : commandOp st = .callXfer m) (hm : m = 0xF0#8 ∨ m = 0xFE#8) (hs : s.seq = .run st none)
    (hr : Ready s) : Reaches (1 + 52) (fun t => Returned st m t ∧ XferFrame s t) s := by
  refine Reaches.trans ((reaches_microStep hs hr.clock.noReset (keptByPeer_regs _) rfl).ready hr) ?_
  rintro t ⟨⟨v, hv, rfl⟩, hr'⟩
  obtain ⟨-, hsclDir, -, -, -, -, hen, -⟩ := registers_of_regs_eq hv
  rw [microStep_call v hop] at hr' ⊢
  have hat : XferAt st m .xf0 (pulsesOf m) (callXfer m st v) :=
    xferAt_callXfer (hen.trans hr.en) (hsclDir.trans hr.sclDir) m st
  obtain ⟨k, hgo, ⟨⟨hret, -⟩, hframe⟩, hk⟩ := (hat.returns hm hr'.clock).framed hr'.clock.noReset
  exact ⟨k, fun j hj => busy_of_inXfer (hgo j hj),
    ⟨hret, ((xferFrame_of_regs_eq hv).trans (xferFrame_callXfer m st v)).trans hframe⟩,
    hk.trans (Nat.add_le_add_left (stepsLeft_call_le hm) _)⟩

end Sys2Proof.Proofs
end

section
/-! SUPPORT. What WRB, WRA and RDB leave alone, ended or blocked: the registers that none of their micro-steps writes
(44_byte_operations.md R135, R136, R137). -/

namespace Sys2Proof.Proofs

open Sys2Proof.Machine Sys2Proof.Safety

variable {s t : State} {st : MicroStep} {x : Option XferStep}

/-! ### What no micro-step of the command writes -/

/-- SCL_DIR, SDA_PORT, EN and OPD.F, which no byte operation writes. -/
def byteFrame (s : State) : Bool × Bool × Bool × Bool := (s.sclDir, s.sdaPort, s.en, s.opdF)

/-- The writers of the frame stand in INIT, START and STOP. -/
theorem byteFrame_blockStep (hs : s.seq = .run st x) (hop : opOf st ∈ [.wrb, .rdb]) :
    byteFrame (blockStep s) = byteFrame s := by
  obtain ⟨-, hsclDir, hsdaPort, -, -, -, hen, -, hopdF, -⟩ := registerWriters s st x hs
  have hscl : (blockStep s).sclDir = s.sclDir := by
    by_contra h
    obtain ⟨-, rfl⟩ := hsclDir h
    simp [opOf] at hop
  have hsda : (blockStep s).sdaPort = s.sdaPort := by
    by_contra h
    obtain ⟨-, hsite⟩ := hsdaPort h
    revert hop
    cases st <;> simp [opOf] at hsite ⊢
  have hunit : (blockStep s).en = s.en := by
    by_contra h
    obtain ⟨-, rfl⟩ := hen h
    simp [opOf] at hop
  simp only [byteFrame, hscl, hsda, hunit, hopdF]

/-- RBUF is written in RDB only. -/
theorem rbuf_blockStep (hs : s.seq = .run st x) (hop : opOf st ≠ .rdb) : (blockStep s).rbuf = s.rbuf := by
  obtain ⟨-, -, -, -, -, -, -, -, -, -, -, hrbuf, -⟩ := registerWriters s st x hs
  by_contra h
  obtain ⟨-, rfl⟩ := hrbuf h
  exact hop rfl

/-- OPD.D is written by WA0 only. -/
theorem opdD_blockStep (hs : s.seq = .run st x) (hop : opOf st ≠ .wra) : (blockStep s).opdD = s.opdD := by
  obtain ⟨-, -, -, -, -, -, -, -, -, hopdD, -⟩ := registerWriters s st x hs
  by_contra h
  obtain ⟨-, rfl⟩ := hopdD h
  exact hop rfl

/-! ### WRB and RDB, and WRA from WB0 on -/

/-- The micro-programs of WRB and RDB go on within their command, to its end (R135, R136). -/
theorem seqOp_nextSeq_of_byteOp (hop : opOf st ∈ [.wrb, .rdb]) (x : Option XferStep) (s : State) :
    nextSeq st x s = .idle ∨ seqOp (nextSeq st x s) = opOf st := by
  have hafter : afterStep st = .idle ∨ seqOp (afterStep st) = opOf st := by
    revert hop; cases st <;> simp [opOf, afterStep, seqOp]
  cases x with
  | none =>
    rcases nextSeq_none_cases st s with h | ⟨-, h⟩ | ⟨m, -, h⟩ <;> rw [h]
    exacts [hafter, .inr rfl, .inr rfl]
  | some a =>
    rcases nextSeq_some_cases st a s with h | ⟨b, h⟩ <;> rw [h]
    exacts [hafter, .inr rfl]

/-- WRB or RDB runs, or has ended, since the state `a`: the frame and the operand are as there, and after WRB so is
RBUF. -/
structure RunsFrom (op : Op) (a s : State) : Prop where
  within : s.seq = .idle ∨ seqOp s.seq = op
  frame : byteFrame s = byteFrame a
  opdD : s.opdD = a.opdD
  rbuf : op ≠ .rdb → s.rbuf = a.rbuf

theorem kept_runsFrom {op : Op} (hop : op ∈ [.wrb, .rdb]) (a : State) : KeptByMoves (RunsFrom op a) where
  block v h := by
    obtain ⟨hwithin, hframe, hopdD, hrbuf⟩ := h
    cases hs : v.seq with
    | idle => rw [blockStep_idle hs]; exact ⟨hwithin, hframe, hopdD, hrbuf⟩
    | run st x =>
      obtain rfl : opOf st = op := by simpa [hs, seqOp] using hwithin
      have hwra : opOf st ≠ .wra := by intro h; simp [h] at hop
      refine ⟨?_, (byteFrame_blockStep hs hop).trans hframe, (opdD_blockStep hs hwra).trans hopdD,
        fun hrdb => (rbuf_blockStep hs hrdb).trans (hrbuf hrdb)⟩
      rw [blockStep_run hs, microStep_seq]
      exact seqOp_nextSeq_of_byteOp hop x v
  peer b c v h := by
    obtain ⟨hwithin, hframe, hopdD, hrbuf⟩ := h
    exact ⟨by rwa [peerStep_seq], by simpa [byteFrame, peerStep] using hframe,
      by simpa [peerStep] using hopdD, by simpa [peerStep] using hrbuf⟩
  sched _ _ h := ⟨h.within, h.frame, h.opdD, h.rbuf⟩

theorem RunsFrom.registers {op : Op} {a : State} (h : RunsFrom op a s) :
    s.sclDir = a.sclDir ∧ s.sdaPort = a.sdaPort ∧ s.en = a.en ∧ s.opdF = a.opdF ∧ s.opdD = a.opdD := by
  have hframe := h.frame
  simp only [byteFrame, Prod.mk.injEq] at hframe
  obtain ⟨hsclDir, hsdaPort, hen, hopdF⟩ := hframe
  exact ⟨hsclDir, hsdaPort, hen, hopdF, h.opdD⟩

/-! ### Ended or blocked -/

/-- A command that reaches a state with `P` in time answers a state with `P`, when the moves keep `P`. -/
theorem Reaches.issue_keeps {P : State → Prop} {N : Nat} {f : Bool} {d : Byte}
    (h : Reaches N P (accept st f d s)) (hN : N ≤ 128) (K : KeptByMoves P) (hn : noReset s.sched = true)
    (ht : issue st f d s = .next t) : P t := by
  obtain ⟨-, rfl⟩ := issue_next ht
  have hmark : Reaches N (fun t => P t ∧ noReset t.sched = true) (accept st f d s) :=
    h.keeping hn fun _ hv _ => noReset_turn hv
  obtain ⟨u, r, ⟨hu, hnu⟩, hrun⟩ := hmark.runCommand_eq hN
  obtain ⟨n, -, hturns, -⟩ := runWhile_turns busy r u
  rw [hrun, hturns]
  exact K.turns hnu n hu

/-- WA0 composes the byte that WRB goes on with (R137). -/
theorem reaches_composed {isWrite : Bool} {d : Byte} (hn : noReset s.sched = true) :
    Reaches 1 (fun t => t.seq = .run .wb0 none ∧
      regs t = regs { s with opdF := isWrite, opdD := composeAddress d isWrite }) (accept .wa0 isWrite d s) :=
  reaches_step (s := accept .wa0 isWrite d s) rfl hn fun _ => rfl

/-- Settles O54: WRB begins with its byte, and WRA goes on as WRB when WA0 has composed its own. -/
theorem writeByteFrame : Obligations.WriteByteFrame := by
  intro s t d hn
  have hkept := fun a => kept_runsFrom (op := .wrb) (by decide) a
  refine ⟨fun h => ?wrb, fun isWrite h => ?wra⟩
  case wrb =>
    let a : State := { s with opdF := false, opdD := d }
    have hruns : RunsFrom .wrb a t :=
      (Reaches.of_done ⟨.inr rfl, rfl, rfl, fun _ => rfl⟩).issue_keeps (by decide) (hkept a) hn h
    obtain ⟨hsclDir, hsdaPort, hen, hopdF, hopdD⟩ := hruns.registers
    exact ⟨hsclDir, hsdaPort, hen, hruns.rbuf (by decide), hopdF, hopdD⟩
  case wra =>
    let a : State := { s with opdF := isWrite, opdD := composeAddress d isWrite }
    have hstart : ∀ v, (v.seq = .run .wb0 none ∧ regs v = regs a) → RunsFrom .wrb a v := by
      rintro v ⟨hseq, hregs⟩
      obtain ⟨-, hsclDir, hsdaPort, -, -, -, hen, -, hopdF, hopdD, -, hrbuf, -⟩ := registers_of_regs_eq hregs
      exact ⟨.inr (by rw [hseq]; rfl), by simp only [byteFrame, hsclDir, hsdaPort, hen, hopdF], hopdD, fun _ => hrbuf⟩
    have hruns : RunsFrom .wrb a t :=
      ((reaches_composed hn).mono hstart).issue_keeps (by decide) (hkept a) hn h
    obtain ⟨hsclDir, hsdaPort, hen, hopdF, hopdD⟩ := hruns.registers
    exact ⟨hsclDir, hsdaPort, hen, hruns.rbuf (by decide), hopdF, hopdD⟩

/-- Settles O55: RDB begins with its operand. -/
theorem readByteFrame : Obligations.ReadByteFrame := by
  intro s t more hn h
  have hruns : RunsFrom .rdb { s with opdF := more, opdD := 0x00#8 } t :=
    (Reaches.of_done ⟨.inr rfl, rfl, rfl, fun _ => rfl⟩).issue_keeps (by decide) (kept_runsFrom (by decide) _) hn h
  exact hruns.registers

end Sys2Proof.Proofs
end

section
/-! SUPPORT. WRB, WRA and RDB under every peer that releases the clock in the end: they end at the boundary
(44_byte_operations.md R135, R136, R137; 10_state.md R35). -/

namespace Sys2Proof.Proofs

open Sys2Proof.Machine Sys2Proof.Safety

variable {s t a : State}

/-! ### The end of a byte operation -/

/-- What a byte operation leaves for the boundary of R35, but for what it has from before (R135, R136). -/
structure EndsByte (s : State) : Prop where
  idle : s.seq = .idle
  after : AfterByte s
  sdaDir : s.sdaDir = true
  xmask : s.xmask = 0xFE#8

/-- No micro-operation of the last steps writes what a transfer left (R135, R136). -/
theorem afterByte_of_eq (h : AfterByte s) (hport : t.sclPort = s.sclPort) (hdr : t.dr = s.dr) (hol : t.ol = s.ol)
    (hcf : t.cf = s.cf) (hcnt : t.cnt = s.cnt) : AfterByte t :=
  ⟨hport.trans h.sclPort, hdr.trans h.dr, hol.trans h.ol, hcf.trans h.cf, hcnt.trans h.cnt⟩

/-! ### WRB -/

/-- WRB from WB0 on: the byte is sent, the line let go, the acknowledge sampled, the line taken back. -/
theorem reaches_wrb_end (hs : s.seq = .run .wb0 none) (hr : Ready s) :
    Reaches 110 (fun t => EndsByte t ∧ t.res = ackResult t.tmp) s := by
  refine Reaches.trans (M := 109) ((reaches_step hs hr.clock.noReset fun _ => rfl).ready hr) ?_
  rintro b ⟨⟨hb, -⟩, hr⟩
  refine Reaches.trans (M := 56) ((reaches_call rfl (.inl rfl) hb hr).ready hr) ?_
  rintro c ⟨⟨⟨hc, -⟩, -⟩, hr⟩
  refine Reaches.trans (M := 55) ((reaches_step hc hr.clock.noReset fun _ => rfl).ready hr) ?_
  rintro d ⟨⟨hd, -⟩, hr⟩
  refine Reaches.trans (M := 2) ((reaches_call rfl (.inr rfl) hd hr).ready hr) ?_
  rintro e ⟨⟨⟨he, hafter, hxmask, -⟩, -⟩, hr⟩
  refine Reaches.trans (M := 1) ((reaches_step_afterByte he hr.clock.noReset (fun _ => rfl) hafter hr.sclDir
    fun _ _ h => afterByte_of_eq h rfl rfl rfl rfl rfl).ready hr) ?_
  rintro f ⟨⟨hf, hregs, hafter⟩, hr⟩
  obtain ⟨hsdaDir, -, -, -, -, -, -, hxmask', -⟩ := registers_of_regs_eq hregs
  refine (reaches_step_afterByte hf hr.clock.noReset (fun _ => rfl) hafter hr.sclDir
    fun _ _ h => afterByte_of_eq h rfl rfl rfl rfl rfl).mono ?_
  rintro t ⟨ht, hregs, hafter⟩
  obtain ⟨hsdaDir', -, -, -, -, -, -, hxmask'', -, -, htmp, -, hres⟩ := registers_of_regs_eq hregs
  exact ⟨⟨ht, hafter, hsdaDir'.trans hsdaDir, hxmask''.trans (hxmask'.trans hxmask)⟩,
    hres.trans (by rw [htmp]; rfl)⟩

theorem ackResult_eq_ite (v : Byte) : ackResult v = if v.getLsbD 0 then 0x01#8 else 0x00#8 := by
  rw [ackResult]
  cases v.getLsbD 0 <;> rfl

/-- Settles O44: WRB reaches its end, and leaves its frame. -/
theorem wrbResult : Obligations.WrbResult := by
  intro s d hidle he hd hc
  have hstart : Ready (accept .wb0 false d s) := ⟨he, hd, hc.noReset, hc.released⟩
  obtain ⟨t, ht, ⟨hend, hafter, hsdaDir, hxmask⟩, hres⟩ :=
    (reaches_wrb_end rfl hstart).issue_ends hidle (by decide) fun _ h => h.1.idle
  obtain ⟨hsclDir, hsdaPort, hen, hrbuf, hopdF, hopdD⟩ := (writeByteFrame s t d hc.noReset).1 ht
  exact ⟨t, ht, hend, hafter, hsdaDir, hxmask, hres.trans (ackResult_eq_ite _), hopdF, hopdD, hsclDir, hsdaPort, hen,
    hrbuf⟩

/-- Settles O46: WRA is WRB after WA0, and leaves its own frame. -/
theorem wraResult : Obligations.WraResult := by
  intro s d isWrite hidle he hd hc
  have hstart : Ready (accept .wa0 isWrite d s) := ⟨he, hd, hc.noReset, hc.released⟩
  have hreach : Reaches (1 + 110) (fun t => EndsByte t ∧ t.res = ackResult t.tmp) (accept .wa0 isWrite d s) :=
    ((reaches_composed hc.noReset).ready hstart).trans fun _ hv => reaches_wrb_end hv.1.1 hv.2
  obtain ⟨t, ht, ⟨hend, hafter, hsdaDir, hxmask⟩, hres⟩ := hreach.issue_ends hidle (by decide) fun _ h => h.1.idle
  obtain ⟨hsclDir, hsdaPort, hen, hrbuf, hopdF, hopdD⟩ := (writeByteFrame s t d hc.noReset).2 isWrite ht
  exact ⟨t, ht, hend, hafter, hsdaDir, hxmask, hres.trans (ackResult_eq_ite _), hopdF, hopdD, hsclDir, hsdaPort, hen,
    hrbuf⟩

/-! ### RDB -/

/-- RDB up to RD2: the line let go, and the byte received. -/
theorem reaches_rd2 (hs : s.seq = .run .rd0 none) (hr : Ready s) :
    Reaches (1 + (1 + 52)) (fun t => t.seq = .run .rd2 none ∧ Ready t) s := by
  refine Reaches.trans ((reaches_step hs hr.clock.noReset fun _ => rfl).ready hr) ?_
  rintro b ⟨⟨hb, -⟩, hr⟩
  exact ((reaches_call rfl (.inl rfl) hb hr).ready hr).mono fun _ h => ⟨h.1.1.seq, h.2⟩

/-- RDB from RD2 on: the byte is kept in RBUF, the acknowledge sent, and the byte answered. -/
theorem reaches_rdb_end (hs : s.seq = .run .rd2 none) (hr : Ready s) :
    Reaches 57 (fun t => EndsByte t ∧ t.rbuf = s.tmp ∧ t.res = t.rbuf) s := by
  refine Reaches.trans (M := 56) ((reaches_step hs hr.clock.noReset fun _ => rfl).ready hr) ?_
  rintro b ⟨⟨hb, hregsB⟩, hr⟩
  refine Reaches.trans (M := 55) ((reaches_step hb hr.clock.noReset fun _ => rfl).ready hr) ?_
  rintro c ⟨⟨hc, hregsC⟩, hr⟩
  refine Reaches.trans (M := 54) ((reaches_step hc hr.clock.noReset fun _ => rfl).ready hr) ?_
  rintro d ⟨⟨hd, hregsD⟩, hr⟩
  refine Reaches.trans (M := 1) ((reaches_call rfl (.inr rfl) hd hr).ready hr) ?_
  rintro e ⟨⟨⟨he, hafter, hxmask, -⟩, hframe⟩, hr⟩
  refine (reaches_step_afterByte he hr.clock.noReset (fun _ => rfl) hafter hr.sclDir
    fun _ _ h => afterByte_of_eq h rfl rfl rfl rfl rfl).mono ?_
  rintro t ⟨ht, hregs, hafter⟩
  obtain ⟨-, -, -, -, -, -, -, -, -, -, -, hrbufB, -⟩ := registers_of_regs_eq hregsB
  obtain ⟨hsdaDirC, -, -, -, -, -, -, -, -, -, -, hrbufC, -⟩ := registers_of_regs_eq hregsC
  obtain ⟨hsdaDirD, -, -, -, -, -, -, -, -, -, -, hrbufD, -⟩ := registers_of_regs_eq hregsD
  obtain ⟨hsdaDir, -, -, -, -, -, -, hxmask', -, -, -, hrbuf, hres⟩ := registers_of_regs_eq hregs
  exact ⟨⟨ht, hafter, hsdaDir.trans (hframe.lines.sdaDir.trans (hsdaDirD.trans hsdaDirC)), hxmask'.trans hxmask⟩,
    hrbuf.trans (hframe.rbuf.trans (hrbufD.trans (hrbufC.trans hrbufB))), hres.trans hrbuf.symm⟩

/-- Settles O45: the turns to RD2, and from there to the end. -/
theorem rdbResult : Obligations.RdbResult := by
  intro s more hidle he hd hc
  let a : State := accept .rd0 more 0x00#8 s
  have hreach : Reaches (1 + (1 + 52) + 57) (fun t => (EndsByte t ∧ t.res = t.rbuf) ∧
      ∃ k n : Nat, k < n ∧ t = turns n a ∧ (turns k a).seq = .run .rd2 none ∧ t.rbuf = (turns k a).tmp) a := by
    refine (reaches_rd2 (s := a) rfl ⟨he, hd, hc.noReset, hc.released⟩).counted.trans ?_
    rintro u ⟨⟨hu, hr⟩, k, rfl⟩
    refine (reaches_rdb_end hu hr).counted.mono ?_
    rintro t ⟨⟨hend, hrbuf, hres⟩, j, rfl⟩
    have hj : j ≠ 0 := by
      rintro rfl
      cases hend.idle.symm.trans hu
    exact ⟨⟨hend, hres⟩, k, k + j, by omega, (turns_add k j a).symm, hu, hrbuf⟩
  obtain ⟨t, ht, ⟨⟨hend, hafter, hsdaDir, hxmask⟩, hres⟩, hbyte⟩ :=
    hreach.issue_ends hidle (by decide) fun _ h => h.1.1.idle
  obtain ⟨hsclDir, hsdaPort, hen, hopdF, hopdD⟩ := readByteFrame s t more hc.noReset ht
  exact ⟨t, ht, hend, hafter, hsdaDir, hxmask, hbyte, hres, hopdF, hopdD, hsclDir, hsdaPort, hen⟩

end Sys2Proof.Proofs
end

section
/-! SUPPORT. Micro-steps of the block one after another, with or without moves of their own among the coming ones; the
steps that leave the clock low, and the pulses of a call, each with the bit that it puts on the wire
(42_transfer_primitive.md R111, R118; 20_memory.md R47, R58). -/

namespace Sys2Proof.Proofs

open Sys2Proof.Machine Sys2Proof.Safety

variable {s t u a b : State} {st : MicroStep} {x : Option XferStep} {j k n : Nat} {m d : Byte} {seen : List Bool}

/-! ### Micro-steps one after another -/

/-- `k` micro-steps of a running command lead from `s` to `t`. -/
inductive BlockSteps : Nat → State → State → Prop where
  | refl (s : State) : BlockSteps 0 s s
  | step {s t : State} {st : MicroStep} {x : Option XferStep} {k : Nat} (hs : s.seq = .run st x)
      (h : BlockSteps k (microStep st x s) t) : BlockSteps (k + 1) s t

theorem BlockSteps.one (hs : s.seq = .run st x) (h : microStep st x s = t) : BlockSteps 1 s t :=
  h ▸ .step hs (.refl _)

theorem BlockSteps.trans (h : BlockSteps j s t) (h' : BlockSteps k t u) : BlockSteps (j + k) s u := by
  induction h with
  | refl s => rwa [Nat.zero_add]
  | step hs _ ih => rw [Nat.add_right_comm]; exact .step hs (ih h')

theorem settle_withSched (moves : List Turn) (s : State) :
    settle { s with sched := moves } = { settle s with sched := moves } := by
  have hdr : (settle { s with sched := moves }).dr = (settle s).dr := by rw [settle_dr, settle_dr]; rfl
  have hol : (settle { s with sched := moves }).ol = (settle s).ol := by rw [settle_ol, settle_ol, hdr]; rfl
  rw [settle_eq, settle_eq s, hdr, hol, settle_sclq, settle_sclq]
  rfl

theorem applyOp_withSched (op : MicroOp) (moves : List Turn) (s : State) :
    applyOp op { s with sched := moves } = { applyOp op s with sched := moves } := by
  cases op
  case strobe => unfold applyOp countStrobe; dsimp only; split <;> rfl
  all_goals rfl

/-- The block does not look at the moves to come. -/
theorem microStep_withSched (st : MicroStep) (x : Option XferStep) (moves : List Turn) (s : State) :
    microStep st x { s with sched := moves } = { microStep st x s with sched := moves } := by
  have hseq : nextSeq st x { s with sched := moves } = nextSeq st x s := rfl
  rw [microStep, applyOp_withSched, hseq]
  exact congrArg (observe s) (settle_withSched moves { applyOp (opAt st x) s with seq := nextSeq st x s })

/-- With no move to come the block moves. -/
theorem BlockSteps.leads (h : BlockSteps k s t) (hsched : s.sched = []) : Leads k s t := by
  induction h with
  | refl s => exact fun _ => rfl
  | step hs _ ih =>
    intro n
    rw [← Nat.add_assoc, runWhile_go (by rw [busy, hs]), turn_nil hsched, blockStep_run hs]
    exact ih ((microStep_sched _ _ _).trans hsched) n

/-- The block has as many moves of its own among the coming ones. -/
theorem BlockSteps.leads_moves {moves : List Turn} (h : BlockSteps k s t)
    (hsched : s.sched = List.replicate k .block ++ moves) : Leads k s { t with sched := moves } := by
  have hmoves : Leads k { s with sched := List.replicate k .block ++ moves } { t with sched := moves } := by
    clear hsched
    induction h with
    | refl s => exact fun _ => rfl
    | @step s t st x k hs _ ih =>
      intro n
      have hturn : turn { s with sched := List.replicate (k + 1) .block ++ moves } =
          { microStep st x s with sched := List.replicate k .block ++ moves } :=
        (turn_block rfl).trans ((blockStep_run (s := { s with sched := List.replicate k .block ++ moves }) hs).trans
          (microStep_withSched st x _ s))
      rw [← Nat.add_assoc, runWhile_go (by rw [busy, hs]), hturn]
      exact ih n
  rwa [← hsched] at hmoves

/-! ### With the clock held low -/

/-- The unit is enabled, the clock line is an output, and the peer leaves it. -/
def OwnsClock (s : State) : Prop := s.en = true ∧ s.sclDir = true ∧ s.peerSclLow = false

/-- The block holds the clock low, and settle() has recorded it. -/
def HoldsClockLow (s : State) : Prop := OwnsClock s ∧ s.sclPort = false ∧ s.sclq = false

theorem OwnsClock.sclLine_eq (h : OwnsClock s) : sclLine s = s.sclPort := sclLine_eq_sclPort h.2.1 h.2.2

theorem HoldsClockLow.low (h : HoldsClockLow s) : sclLine s = false := h.1.sclLine_eq.trans h.2.1

theorem OwnsClock.settled_of_high (h : OwnsClock s) (hport : s.sclPort = true) (hclock : s.sclq = true) :
    Settled s := by
  have hline : sclLine s = true := h.sclLine_eq.trans hport
  refine ⟨hclock.trans hline.symm, ?_⟩
  rintro (hen | hlow)
  · exact absurd (h.1.symm.trans hen) (by decide)
  · exact absurd (hline.symm.trans hlow) (by decide)

/-- A step that leaves the clock low moves no line that the observer looks at; the latch shows DR[7]. -/
theorem finish_of_held (hb : HoldsClockLow b) (ha : HoldsClockLow a) :
    finish b a = { a with ol := a.dr.getLsbD 7 } := by
  have hsettle : settle a = { a with ol := a.dr.getLsbD 7 } := by
    obtain ⟨hdr, hol⟩ := settle_of_low ha.low
    rw [settle_eq, hdr, hol, settle_sclq, ha.low, ← ha.2.2]
  rw [finish, observe, sclLine_settle, hb.low, ha.low, hsettle]
  simp [observerStep]

theorem BlockSteps.held (hs : s.seq = .run st x) (hb : HoldsClockLow s)
    (ht : { applyOp (opAt st x) s with
      seq := nextSeq st x s, ol := (applyOp (opAt st x) s).dr.getLsbD 7 } = t)
    (ha : HoldsClockLow t) : BlockSteps 1 s t := by
  subst ht
  exact .one hs (finish_of_held (a := { applyOp (opAt st x) s with seq := nextSeq st x s }) hb ha)

/-- A step with the clock low that does not write DR moves nothing but what its micro-operation writes. -/
theorem BlockSteps.quiet (hs : s.seq = .run st x) (hb : HoldsClockLow s) (hlatch : s.ol = s.dr.getLsbD 7)
    (hdr : (applyOp (opAt st x) s).dr = s.dr) (ht : { applyOp (opAt st x) s with seq := nextSeq st x s } = t)
    (ha : HoldsClockLow t) : BlockSteps 1 s t := by
  refine .held hs hb ?_ ha
  rw [hdr, ← hlatch, ← applyOp_ol s (opAt st x)]
  exact ht

/-- The peer drives the data line while the clock is low: the block does not see it yet. -/
theorem leads_peer {low : Bool} {rest : List Turn} (hs : busy s = true) (hb : HoldsClockLow s)
    (hsched : s.sched = .peer low false :: rest) :
    Leads 1 s { s with sched := rest, peerSdaLow := low, peerSclLow := false, ol := s.dr.getLsbD 7 } := by
  intro n
  have ha : HoldsClockLow { s with sched := rest, peerSdaLow := low, peerSclLow := false } :=
    ⟨⟨hb.1.1, hb.1.2.1, rfl⟩, hb.2⟩
  rw [runWhile_go hs, turn_peer hsched]
  exact congrArg (runWhile busy n) (finish_of_held (b := { s with sched := rest }) hb ha)

/-! ### The two edges of the clock -/

/-- The clock rises: the level of the data line enters DR, and the observer holds it as a data bit (R58, R96). -/
theorem finish_of_rise {level : Bool} (hb : sclLine b = false) (hen : a.en = true) (hclock : a.sclq = false)
    (ha : sclLine a = true) (hlevel : sdaLine a = level) :
    finish b a = { a with dr := shiftIn a.dr level, sclq := true, obsPending := some level } := by
  have hedge : risingEdge a = true := (risingEdge_iff a).mpr ⟨hen, hclock, ha⟩
  have hsda : sdaLine (settle a) = level := by
    rw [sdaLine, masterSdaLow_settle_of_high ha, settle_peerSdaLow, ← hlevel, sdaLine]
  rw [finish, observe, sclLine_settle, hsda, hb, ha, settle_eq, settle_dr, if_pos hedge, settle_ol_of_high hen ha,
    settle_sclq, ha, hlevel]
  simp [observerStep]

/-- The clock falls: the latch shows DR[7], and the observer emits the data bit it holds (R58, R97). -/
theorem finish_of_fall (hb : sclLine b = true) (ha : sclLine a = false) :
    finish b a = { a with
      ol := a.dr.getLsbD 7, sclq := false, obsPending := none
      obsTrace := a.obsTrace ++ a.obsPending.toList.map BusEvent.bit } := by
  obtain ⟨hdr, hol⟩ := settle_of_low ha
  rw [finish, observe, sclLine_settle, hb, ha, settle_eq, hdr, hol, settle_sclq, ha]
  cases a.obsPending <;> rfl

theorem strobe_of_enabled (he : s.en = true) :
    applyOp .strobe s = { s with
      sclPort := !s.sclPort, cnt := nextCount s.cnt, cf := nextFlag s.cf s.cnt } := if_pos he

/-- XF3 to XF6 with a free clock: one pulse, two strobes, one bit on the wire (R111). -/
theorem blockSteps_pulse {level : Bool} (hs : s.seq = .run st (some .xf3)) (hb : HoldsClockLow s)
    (hlevel : sdaLine s = level) :
    BlockSteps 4 s { s with
      seq := .run st (some .xf7), sclPort := false, sclq := false, dr := shiftIn s.dr level
      ol := (shiftIn s.dr level).getLsbD 7, cf := nextFlag (nextFlag s.cf s.cnt) (nextCount s.cnt)
      cnt := nextCount (nextCount s.cnt), obsPending := none, obsTrace := s.obsTrace ++ [.bit level] } := by
  obtain ⟨hc, hport, hclock⟩ := hb
  let high : State := { s with
    seq := .run st (some .xf4), sclPort := true, sclq := true, dr := shiftIn s.dr level
    cf := nextFlag s.cf s.cnt, cnt := nextCount s.cnt, obsPending := some level }
  have hline : ∀ q, sclLine { high with seq := q } = true := fun q =>
    OwnsClock.sclLine_eq (s := { high with seq := q }) hc
  have hset : ∀ q, Settled { high with seq := q } := fun q => OwnsClock.settled_of_high hc rfl rfl
  have hrise : BlockSteps 1 s high := by
    refine .one hs ?_
    rw [microStep, opAt, xferOp, strobe_of_enabled hc.1, hport]
    refine finish_of_rise (hc.sclLine_eq.trans hport) hc.1 hclock ?_ hlevel
    exact OwnsClock.sclLine_eq (s := { s with
      sclPort := true, cnt := nextCount s.cnt, cf := nextFlag s.cf s.cnt, seq := .run st (some .xf4) }) hc
  have hwait : BlockSteps 1 high { high with seq := .run st (some .xf5) } := by
    refine .one (x := some .xf4) rfl ?_
    rw [microStep_wait (hset _) rfl, nextSeq_wait rfl, if_pos (hline _)]
    rfl
  have hdelay : BlockSteps 1 { high with seq := .run st (some .xf5) } { high with seq := .run st (some .xf6) } :=
    .one (x := some .xf5) rfl (finish_of_same (b := { high with seq := .run st (some .xf5) }) (hset _) rfl rfl)
  refine hrise.trans <| hwait.trans <| hdelay.trans <| .one (x := some .xf6) rfl ?_
  rw [microStep, opAt, xferOp, strobe_of_enabled (s := { high with seq := .run st (some .xf6) }) hc.1]
  refine finish_of_fall (hline _) ?_
  exact OwnsClock.sclLine_eq (s := { high with
    sclPort := false, cnt := nextCount high.cnt, cf := nextFlag high.cf high.cnt, seq := .run st (some .xf7) }) hc

end Sys2Proof.Proofs
end

section
/-! SUPPORT. The pulses of a call with a free clock: where the call stands after each of them, what has been on the
wire, and what it leaves (42_transfer_primitive.md R111, R113, R118). -/

namespace Sys2Proof.Proofs

open Sys2Proof.Machine Sys2Proof.Safety

variable {s t : State} {st : MicroStep} {m d : Byte} {n : Nat} {x : XferStep} {seen : List Bool}

/-! ### The states of a call -/

/-- The level of the data line at the rising edge of a pulse that finds `d` in DR: `pulseDr` shifts it in. -/
def levelOf (s : State) (d : Byte) : Bool := sdaLine { s with ol := d.getLsbD 7 }

theorem pulseDr_eq (s : State) (d : Byte) : pulseDr s d = shiftIn d (levelOf s d) := rfl

/-- The call that `st` makes in `s` with the mask `m`, at the step `x` with the clock low and `n` pulses to come: DR
holds `d`, and the bits `seen` have been on the wire. -/
def callAt (s : State) (st : MicroStep) (m : Byte) (x : XferStep) (n : Nat) (d : Byte) (seen : List Bool) : State :=
  { s with
    seq := .run st (some x), xmask := m, sclPort := false, sclq := false, dr := d, ol := d.getLsbD 7
    cf := decide (n = 0), cnt := BitVec.ofNat 4 (16 - 2 * n), obsPending := none
    obsTrace := s.obsTrace ++ seen.map BusEvent.bit }

/-- The return of the call (R113). -/
def callEnd (s : State) (st : MicroStep) (m d : Byte) (seen : List Bool) : State :=
  { s with
    seq := afterStep st, xmask := m, sclPort := false, sclq := false, dr := 0xFF#8, ol := true, cf := true, cnt := 0#4
    tmp := d, obsPending := none, obsTrace := s.obsTrace ++ seen.map BusEvent.bit }

theorem holdsClockLow_callAt (hc : OwnsClock s) : HoldsClockLow (callAt s st m x n d seen) := ⟨hc, rfl, rfl⟩

theorem holdsClockLow_callEnd (hc : OwnsClock s) : HoldsClockLow (callEnd s st m d seen) := ⟨hc, rfl, rfl⟩

/-- What the latch shows after a call. -/
theorem latch_idleFill : true = (0xFF#8).getLsbD 7 := by decide

/-! ### One pulse -/

/-- The two strobes of a pulse count to the wrap when no pulse is to come after it (R98, R99). -/
theorem two_strobes :
    ∀ n < 8, nextCount (nextCount (BitVec.ofNat 4 (16 - 2 * (n + 1)))) = BitVec.ofNat 4 (16 - 2 * n) ∧
      nextFlag (nextFlag false (BitVec.ofNat 4 (16 - 2 * (n + 1)))) (nextCount (BitVec.ofNat 4 (16 - 2 * (n + 1)))) =
        decide (n = 0) := by decide

/-- A pulse from XF3 to XF7, with a data bit pending from before the call or without. -/
theorem blockSteps_pulse_callAt (hc : OwnsClock s) (hn : n < 8) (pending : Option Bool) :
    BlockSteps 4 { callAt s st m .xf3 (n + 1) d seen with obsPending := pending }
      (callAt s st m .xf7 n (pulseDr s d) (seen ++ [levelOf s d])) := by
  obtain ⟨hcnt, hcf⟩ := two_strobes n hn
  have hpulse := blockSteps_pulse (s := { callAt s st m .xf3 (n + 1) d seen with obsPending := pending }) rfl
    ⟨hc, rfl, rfl⟩ (level := levelOf s d) rfl
  have hflag : decide (n + 1 = 0) = false := rfl
  simp only [callAt, hcnt, hcf, hflag, List.append_assoc] at hpulse ⊢
  rw [List.map_append, pulseDr_eq]
  exact hpulse

/-- The round from one falling edge to the next (XF7, then XF2 to XF6). -/
theorem blockSteps_round (hc : OwnsClock s) (hn : n < 8) :
    BlockSteps 6 (callAt s st m .xf7 (n + 1) d seen)
      (callAt s st m .xf7 n (pulseDr s d) (seen ++ [levelOf s d])) := by
  have htest : BlockSteps 1 (callAt s st m .xf7 (n + 1) d seen) (callAt s st m .xf2 (n + 1) d seen) :=
    .held (x := some .xf7) rfl (holdsClockLow_callAt hc) rfl (holdsClockLow_callAt hc)
  have hdelay : BlockSteps 1 (callAt s st m .xf2 (n + 1) d seen) (callAt s st m .xf3 (n + 1) d seen) :=
    .held (x := some .xf2) rfl (holdsClockLow_callAt hc) rfl (holdsClockLow_callAt hc)
  exact htest.trans (hdelay.trans (blockSteps_pulse_callAt hc hn none))

/-! ### The call and its return -/

/-- What XF1 makes of SR: the flag cleared, and two strobes for each pulse to come (R64, R111). -/
theorem writeStatus_mask (hm : (m = 0xF0#8 ∧ n = 7) ∨ (m = 0xFE#8 ∧ n = 0)) (s : State) :
    writeStatus m s = { s with cf := decide (n + 1 = 0), cnt := BitVec.ofNat 4 (16 - 2 * (n + 1)) } := by
  rw [(statusAccess s m).1]
  rcases hm with ⟨rfl, rfl⟩ | ⟨rfl, rfl⟩ <;> rfl

/-- From the call to the first falling edge: the micro-step that calls, XF0 to XF2, and the first pulse. -/
theorem blockSteps_call (hop : commandOp st = .callXfer m) (hm : (m = 0xF0#8 ∧ n = 7) ∨ (m = 0xFE#8 ∧ n = 0))
    (hs : s.seq = .run st none) (hb : HoldsClockLow s) :
    BlockSteps 8 s (callAt s st m .xf7 n (pulseDr s s.dr) [levelOf s s.dr]) := by
  obtain ⟨hc, hport, hclock⟩ := hb
  let called : State := { s with seq := .run st (some .xf0), xmask := m, ol := s.dr.getLsbD 7 }
  have hcalled : BlockSteps 1 s called :=
    .one hs ((microStep_call s hop).trans
      (finish_of_held (a := { s with xmask := m, seq := .run st (some .xf0) }) ⟨hc, hport, hclock⟩
        ⟨hc, hport, hclock⟩))
  let held : State := { called with seq := .run st (some .xf1), sclPort := false, sclq := false }
  have hheld : BlockSteps 1 called held := by
    refine .held (x := some .xf0) rfl ⟨hc, hport, hclock⟩ ?_ ⟨hc, rfl, rfl⟩
    simp [held, called, hclock, opAt, xferOp, applyOp, nextSeq, follow, afterXfer]
  let armed : State := { callAt s st m .xf2 (n + 1) s.dr [] with obsPending := s.obsPending }
  have harmed : BlockSteps 1 held armed := by
    refine .held (x := some .xf1) rfl ⟨hc, rfl, rfl⟩ ?_ ⟨hc, rfl, rfl⟩
    have hwrite : applyOp .writeSrMask held = _ := writeStatus_mask hm held
    rw [opAt, xferOp, hwrite]
    simp [armed, held, called, callAt, nextSeq, opAt, xferOp, follow, afterXfer]
  have hdelay : BlockSteps 1 armed { callAt s st m .xf3 (n + 1) s.dr [] with obsPending := s.obsPending } :=
    .held (x := some .xf2) rfl ⟨hc, rfl, rfl⟩ rfl ⟨hc, rfl, rfl⟩
  have hn : n < 8 := by rcases hm with ⟨-, rfl⟩ | ⟨-, rfl⟩ <;> decide
  exact hcalled.trans <| hheld.trans <| harmed.trans <| hdelay.trans (blockSteps_pulse_callAt hc hn s.obsPending)

/-- XF7 to XF9 after the last pulse. -/
theorem blockSteps_return (hc : OwnsClock s) :
    BlockSteps 3 (callAt s st m .xf7 0 d seen) (callEnd s st m d seen) := by
  have htest : BlockSteps 1 (callAt s st m .xf7 0 d seen) (callAt s st m .xf8 0 d seen) :=
    .held (x := some .xf7) rfl (holdsClockLow_callAt hc) rfl (holdsClockLow_callAt hc)
  have hread : BlockSteps 1 (callAt s st m .xf8 0 d seen) { callAt s st m .xf9 0 d seen with tmp := d } :=
    .held (x := some .xf8) rfl (holdsClockLow_callAt hc) rfl ⟨hc, rfl, rfl⟩
  have hfill : BlockSteps 1 { callAt s st m .xf9 0 d seen with tmp := d } (callEnd s st m d seen) := by
    refine .held (x := some .xf9) rfl ⟨hc, rfl, rfl⟩ ?_ (holdsClockLow_callEnd hc)
    simp [callAt, callEnd, opAt, xferOp, applyOp, nextSeq, follow, afterXfer, Config.idleFill]
  exact htest.trans (hread.trans hfill)

/-- Between two pulses the peer drives the data line. -/
theorem leads_peer_callAt {low : Bool} {rest : List Turn} (hc : OwnsClock s)
    (hsched : s.sched = .peer low false :: rest) :
    Leads 1 (callAt s st m x n d seen)
      (callAt { s with sched := rest, peerSdaLow := low, peerSclLow := false } st m x n d seen) :=
  leads_peer (s := callAt s st m x n d seen) rfl (holdsClockLow_callAt hc) hsched

/-! ### Pulses with the peer still -/

/-- The levels of `n` pulses that find `d` in DR. -/
def pulseLevels (s : State) : Nat → Byte → List Bool
  | 0, _ => []
  | n + 1, d => levelOf s d :: pulseLevels s n (pulseDr s d)

theorem blockSteps_rounds (hc : OwnsClock s) (hn : n ≤ 8) :
    BlockSteps (6 * n) (callAt s st m .xf7 n d seen)
      (callAt s st m .xf7 0 ((pulseDr s)^[n] d) (seen ++ pulseLevels s n d)) := by
  induction n generalizing d seen with
  | zero => rw [pulseLevels, List.append_nil]; exact .refl _
  | succ n ih =>
    have hrest := ih (d := pulseDr s d) (seen := seen ++ [levelOf s d]) (by omega)
    rw [List.append_assoc, List.singleton_append] at hrest
    rw [Nat.mul_succ, Nat.add_comm]
    exact (blockSteps_round hc hn).trans hrest

/-- While the master sends to a peer that leaves the data line, the levels are the bits of its byte (R47). -/
theorem levelOf_sending (he : s.en = true) (hdir : s.sdaDir = true) (hport : s.sdaPort = true)
    (hpeer : s.peerSdaLow = false) : levelOf s = fun d => d.getLsbD 7 := by
  funext d
  simp [levelOf, sdaLine, masterSdaLow, he, hdir, hport, hpeer]

/-- While the master listens, the level is the peer's. -/
theorem levelOf_listening (hdir : s.sdaDir = false) : levelOf s = fun _ => !s.peerSdaLow := by
  funext d
  simp [levelOf, sdaLine, masterSdaLow, hdir]

theorem pulseLevels_sending (he : s.en = true) (hdir : s.sdaDir = true) (hport : s.sdaPort = true)
    (hpeer : s.peerSdaLow = false) (d : Byte) : pulseLevels s 8 d = bitsOf d := by
  simp only [pulseLevels, pulseDr_eq, levelOf_sending he hdir hport hpeer]
  revert d
  decide

end Sys2Proof.Proofs
end

section
/-! SUPPORT. WRB on a bus with the clock low: its byte on the wire, then the acknowledge that the peer gives
(44_byte_operations.md R135, R140). -/

namespace Sys2Proof.Proofs

open Sys2Proof.Machine Sys2Proof.Safety

variable {s t : State} {m d : Byte} {seen : List Bool}

theorem holdsClockLow_of_boundary (hb : Boundary s) (hset : Settled s) (hs : Silent s) (hscl : s.sclPort = false) :
    HoldsClockLow s :=
  have hc : OwnsClock s := ⟨hb.en, hb.sclDir, hs.scl⟩
  ⟨hc, hscl, hset.1.trans (hc.sclLine_eq.trans hscl)⟩

/-! ### The three parts of WRB -/

/-- WRB with its operand, at the call of the byte transfer. -/
def wrbLoaded (s : State) (d : Byte) : State :=
  { s with seq := .run .wb1 none, opdF := false, opdD := d, dr := d, ol := d.getLsbD 7 }

/-- WRB to the falling edge of the eighth pulse: the bits of the byte have been on the wire (R135, R140). -/
theorem blockSteps_wrb_byte (hb : HoldsClockLow s) (hdir : s.sdaDir = true) (hport : s.sdaPort = true)
    (hpeer : s.peerSdaLow = false) :
    BlockSteps 51 (accept .wb0 false d s) (callAt (wrbLoaded s d) .wb1 0xF0#8 .xf7 0 d (bitsOf d)) := by
  have hen : s.en = true := hb.1.1
  have hload : BlockSteps 1 (accept .wb0 false d s) (wrbLoaded s d) := .held (x := none) rfl hb rfl hb
  have hcall := blockSteps_call (s := wrbLoaded s d) (m := 0xF0#8) (n := 7) rfl (.inl ⟨rfl, rfl⟩) rfl hb
  have hrounds := blockSteps_rounds (s := wrbLoaded s d) (st := .wb1) (m := 0xF0#8) (n := 7) hb.1 (by decide)
    (d := pulseDr (wrbLoaded s d) d) (seen := [levelOf (wrbLoaded s d) d])
  have hbyte : (pulseDr (wrbLoaded s d))^[7] (pulseDr (wrbLoaded s d) d) = d := by
    have hsent := iterate_pulse_sending s.peerSdaLow d
    rw [hpeer] at hsent
    rw [← Function.iterate_succ_apply, pulseDr_sending (s := wrbLoaded s d) hen hdir hport]
    rw [show (wrbLoaded s d).peerSdaLow = false from hpeer]
    exact hsent
  have hbits : [levelOf (wrbLoaded s d) d] ++ pulseLevels (wrbLoaded s d) 7 (pulseDr (wrbLoaded s d) d) = bitsOf d :=
    pulseLevels_sending (s := wrbLoaded s d) hen hdir hport hpeer d
  rw [hbyte, hbits] at hrounds
  exact hload.trans (hcall.trans hrounds)

/-- WRB at the call of the bit transfer: the byte transfer has returned, and the line is let go. -/
def wrbListening (s : State) (d : Byte) : State :=
  { callEnd s .wb1 0xF0#8 d (bitsOf d) with seq := .run .wb3 none, sdaDir := false }

/-- From there to the falling edge of the ninth pulse: the level of the acknowledge is sampled. -/
theorem blockSteps_wrb_ack {level : Bool} (hc : OwnsClock s) (hlevel : (!s.peerSdaLow) = level) :
    BlockSteps 12 (callAt s .wb1 0xF0#8 .xf7 0 d (bitsOf d))
      (callAt (wrbListening s d) .wb3 0xFE#8 .xf7 0 (shiftIn 0xFF#8 level) [level]) := by
  have hreturn : BlockSteps 3 _ (callEnd s .wb1 0xF0#8 d (bitsOf d)) := blockSteps_return hc
  have hrelease : BlockSteps 1 (callEnd s .wb1 0xF0#8 d (bitsOf d)) (wrbListening s d) :=
    .quiet (x := none) rfl (holdsClockLow_callEnd hc) latch_idleFill rfl rfl ⟨hc, rfl, rfl⟩
  have hcall := blockSteps_call (s := wrbListening s d) (m := 0xFE#8) (n := 0) rfl (.inr ⟨rfl, rfl⟩) rfl
    ⟨hc, rfl, rfl⟩
  have hsample : levelOf (wrbListening s d) = fun _ => level := (levelOf_listening rfl).trans (by rw [← hlevel]; rfl)
  rw [pulseDr_eq, hsample] at hcall
  exact hreturn.trans (hrelease.trans hcall)

/-- From there to the end: the line is taken back, and the sampled level is the result (R135). -/
theorem blockSteps_wrb_result (hc : OwnsClock s) :
    BlockSteps 5 (callAt s .wb3 0xFE#8 .xf7 0 d seen)
      { callEnd s .wb3 0xFE#8 d seen with seq := .idle, sdaDir := true, res := ackResult d } := by
  have hreturn : BlockSteps 3 _ (callEnd s .wb3 0xFE#8 d seen) := blockSteps_return hc
  let taken : State := { callEnd s .wb3 0xFE#8 d seen with seq := .run .wb5 none, sdaDir := true }
  have htake : BlockSteps 1 (callEnd s .wb3 0xFE#8 d seen) taken :=
    .quiet (x := none) rfl (holdsClockLow_callEnd hc) latch_idleFill rfl rfl ⟨hc, rfl, rfl⟩
  have hresult : BlockSteps 1 taken { taken with seq := .idle, res := ackResult d } :=
    .quiet (x := none) rfl ⟨hc, rfl, rfl⟩ latch_idleFill rfl rfl ⟨hc, rfl, rfl⟩
  exact hreturn.trans (htake.trans hresult)

/-! ### The silent bus and the acknowledging peer -/

/-- Settles O47: the three parts with no move to come. -/
theorem wrbOnSilentBus : Obligations.WrbOnSilentBus := by
  intro s d hb hset hsched hs hscl
  have hlow : HoldsClockLow s := holdsClockLow_of_boundary hb hset hs hscl
  have hrun := (blockSteps_wrb_byte (d := d) hlow hb.sdaDir hb.sdaPort hs.sda).trans
    ((blockSteps_wrb_ack (s := wrbLoaded s d) (level := true) hlow.1 (congrArg not hs.sda)).trans
      (blockSteps_wrb_result (s := wrbListening (wrbLoaded s d) d) hlow.1))
  refine (issue_leads hb.idle (hrun.leads hsched) rfl (by decide)).trans ?_
  have hlevel : shiftIn 0xFF#8 true = 0xFF#8 ∧ ackResult 0xFF#8 = 0x01#8 := by decide
  rw [hlevel.1, hlevel.2]
  simp [callEnd, wrbListening, wrbLoaded, wireByte, hs.sda, hb.idle, hb.sdaDir, hscl, hlow.2.2]

/-- Settles O48: the peer pulls the line between the first two parts and lets it go between the last two. -/
theorem wrbAcknowledged : Obligations.WrbAcknowledged := by
  intro s d hb hset hsched hs hscl
  have hlow : HoldsClockLow s := holdsClockLow_of_boundary hb hset hs hscl
  let sent : State := { wrbLoaded s d with
    sched := .peer true false :: (List.replicate 12 .block ++ [.peer false false]) }
  have hbyte : Leads 51 _ (callAt sent .wb1 0xF0#8 .xf7 0 d (bitsOf d)) :=
    (blockSteps_wrb_byte (d := d) hlow hb.sdaDir hb.sdaPort hs.sda).leads_moves hsched
  have hpull := leads_peer_callAt (s := sent) (st := .wb1) (m := 0xF0#8) (x := .xf7) (n := 0) (d := d)
    (seen := bitsOf d) hlow.1 rfl
  let pulled : State := { sent with
    sched := List.replicate 12 .block ++ [.peer false false], peerSdaLow := true, peerSclLow := false }
  have hc : OwnsClock pulled := ⟨hb.en, hb.sclDir, rfl⟩
  let listening : State := { wrbListening pulled d with sched := [.peer false false] }
  have hack : Leads 12 _ (callAt listening .wb3 0xFE#8 .xf7 0 (shiftIn 0xFF#8 false) [false]) :=
    (blockSteps_wrb_ack (s := pulled) (d := d) (level := false) hc rfl).leads_moves rfl
  have hrelease := leads_peer_callAt (s := listening) (st := .wb3) (m := 0xFE#8) (x := .xf7) (n := 0)
    (d := shiftIn 0xFF#8 false) (seen := [false]) hc rfl
  let released : State := { listening with sched := [], peerSdaLow := false, peerSclLow := false }
  have hresult := (blockSteps_wrb_result (s := released) (d := shiftIn 0xFF#8 false) (seen := [false]) hc).leads rfl
  refine (issue_leads hb.idle (hbyte.trans <| hpull.trans <| hack.trans <| hrelease.trans hresult) rfl
    (by decide)).trans ?_
  have hlevel : shiftIn 0xFF#8 false = 0xFE#8 ∧ ackResult 0xFE#8 = 0x00#8 := by decide
  rw [hlevel.1, hlevel.2]
  simp [callEnd, released, listening, wrbListening, pulled, sent, wrbLoaded, wireByte, hs.sda, hs.scl, hb.idle,
    hb.sdaDir, hscl, hlow.2.2]

end Sys2Proof.Proofs
end

section
/-! SUPPORT. RDB with a peer that sends a byte, one level before each pulse of the first transfer
(44_byte_operations.md R136, R141). -/

namespace Sys2Proof.Proofs

open Sys2Proof.Machine Sys2Proof.Safety

variable {s t : State} {st : MicroStep} {m d v : Byte} {seen : List Bool}

/-! ### The byte on the wire -/

theorem getLsbD_shiftIn_succ (d : Byte) (level : Bool) {i : Nat} (hi : i < 7) :
    (shiftIn d level).getLsbD (i + 1) = d.getLsbD i := by
  rw [shiftIn, BitVec.getLsbD_append, BitVec.getLsbD_extractLsb']
  simp [hi]

theorem getLsbD_shiftIn_zero (d : Byte) (level : Bool) : (shiftIn d level).getLsbD 0 = level := by
  rw [shiftIn, BitVec.getLsbD_append]
  simp

/-- Eight levels from outside, most significant first, make the byte, whatever DR held (R47). -/
theorem shiftIn_bitsOf (d v : Byte) : (bitsOf v).foldl shiftIn d = v := by
  apply BitVec.eq_of_getLsbD_eq
  intro i hi
  simp only [bitsOf, List.foldl_cons, List.foldl_nil]
  interval_cases i <;> simp only [getLsbD_shiftIn_succ, getLsbD_shiftIn_zero, Nat.reduceLT]

/-- The moves of the sending peer: one drive before RD1, and one before each of the other rounds. -/
theorem sendMoves_eq (v : Byte) :
    sendMoves v = List.replicate 1 .block ++ .peer (!v.getLsbD 7) false :: (List.replicate 8 .block ++
      ((bitsOf v).tail.flatMap (sendBit 6) ++ [.peer false false])) := rfl

/-- `s` with the moves to come and the peer's drive of the data line; the peer leaves the clock. -/
def underPeer (s : State) (moves : List Turn) (low : Bool) : State :=
  { s with sched := moves, peerSdaLow := low, peerSclLow := false }

theorem ownsClock_underPeer (hc : OwnsClock s) (moves : List Turn) (low : Bool) : OwnsClock (underPeer s moves low) :=
  ⟨hc.1, hc.2.1, rfl⟩

/-- The level is the one the peer drives. -/
theorem levelOf_underPeer (hdir : s.sdaDir = false) (moves : List Turn) (level : Bool) (d : Byte) :
    levelOf (underPeer s moves (!level)) d = level := by
  rw [levelOf_listening (s := underPeer s moves (!level)) hdir]
  simp [underPeer]

/-- Round by round the peer puts a level on the line, and it enters DR. -/
theorem leads_receive (bits : List Bool) (hlen : bits.length ≤ 8) (hc : OwnsClock s) (hdir : s.sdaDir = false)
    (rest : List Turn) (low : Bool) :
    ∃ low', Leads (7 * bits.length)
      (callAt (underPeer s (bits.flatMap (sendBit 6) ++ rest) low) st m .xf7 bits.length d seen)
      (callAt (underPeer s rest low') st m .xf7 0 (bits.foldl shiftIn d) (seen ++ bits)) := by
  induction bits generalizing d seen low with
  | nil => exact ⟨low, by rw [List.append_nil]; exact fun _ => rfl⟩
  | cons level bits ih =>
    have hn : bits.length < 8 := hlen
    let moves : List Turn := bits.flatMap (sendBit 6) ++ rest
    have hdrive := leads_peer_callAt (st := st) (m := m) (x := .xf7) (n := bits.length + 1) (d := d) (seen := seen)
      (s := underPeer s (.peer (!level) false :: (List.replicate 6 .block ++ moves)) low)
      (ownsClock_underPeer hc _ _) rfl
    have hround := (blockSteps_round (s := underPeer s (List.replicate 6 .block ++ moves) (!level)) (st := st) (m := m)
      (d := d) (seen := seen) (ownsClock_underPeer hc _ _) hn).leads_moves rfl
    rw [pulseDr_eq, levelOf_underPeer hdir] at hround
    obtain ⟨low', hrest⟩ := ih (d := shiftIn d level) (seen := seen ++ [level]) hn.le (!level)
    refine ⟨low', ?_⟩
    rw [List.append_assoc, List.singleton_append] at hrest
    have hmoves : (level :: bits).flatMap (sendBit 6) ++ rest =
        .peer (!level) false :: (List.replicate 6 .block ++ moves) := by
      simp [sendBit, moves]
    rw [hmoves, List.length_cons, Nat.mul_succ]
    exact hdrive.trans (hround.trans hrest)

/-! ### The end of RDB -/

/-- RDB with its operand, at the call of the byte transfer, the line let go. -/
def rdbListening (s : State) (more : Bool) : State :=
  { s with seq := .run .rd1 none, opdF := more, opdD := 0x00#8, sdaDir := false, ol := s.dr.getLsbD 7 }

/-- RD2 to RD4 after the first transfer: the byte kept, the line taken back, the acknowledge loaded. -/
def rdbAcknowledging (s : State) (v : Byte) : State :=
  { callEnd s .rd1 0xF0#8 v (bitsOf v) with
    seq := .run .rd5 none, rbuf := v, sdaDir := true, dr := ackValue s.opdF, ol := (ackValue s.opdF).getLsbD 7 }

theorem blockSteps_rdb_keep (hc : OwnsClock s) :
    BlockSteps 6 (callAt s .rd1 0xF0#8 .xf7 0 v (bitsOf v)) (rdbAcknowledging s v) := by
  have hreturn : BlockSteps 3 _ (callEnd s .rd1 0xF0#8 v (bitsOf v)) := blockSteps_return hc
  let kept : State := { callEnd s .rd1 0xF0#8 v (bitsOf v) with seq := .run .rd3 none, rbuf := v }
  have hkeep : BlockSteps 1 (callEnd s .rd1 0xF0#8 v (bitsOf v)) kept :=
    .quiet (x := none) rfl (holdsClockLow_callEnd hc) latch_idleFill rfl rfl ⟨hc, rfl, rfl⟩
  let taken : State := { kept with seq := .run .rd4 none, sdaDir := true }
  have htake : BlockSteps 1 kept taken :=
    .quiet (x := none) rfl ⟨hc, rfl, rfl⟩ latch_idleFill rfl rfl ⟨hc, rfl, rfl⟩
  have hload : BlockSteps 1 taken (rdbAcknowledging s v) :=
    .held (x := none) rfl ⟨hc, rfl, rfl⟩ rfl ⟨hc, rfl, rfl⟩
  exact hreturn.trans (hkeep.trans (htake.trans hload))

/-- Both acknowledge values put a 0 on the wire (R141, log entry 11). -/
theorem ackValue_bits :
    ∀ more, (ackValue more).getLsbD 7 = false ∧
      shiftIn (ackValue more) false = if more then 0x02#8 else 0x00#8 := by decide

/-- The second transfer sends the acknowledge, and RD6 answers the byte. -/
theorem blockSteps_rdb_answer (hc : OwnsClock s) (hport : s.sdaPort = true) (hpeer : s.peerSdaLow = false) :
    BlockSteps 12 (rdbAcknowledging s v)
      { callEnd (rdbAcknowledging s v) .rd5 0xFE#8 (if s.opdF then 0x02#8 else 0x00#8) [false] with
        seq := .idle, res := v } := by
  have hcall := blockSteps_call (s := rdbAcknowledging s v) (m := 0xFE#8) (n := 0) rfl (.inr ⟨rfl, rfl⟩) rfl
    ⟨hc, rfl, rfl⟩
  obtain ⟨hbit, hshift⟩ := ackValue_bits s.opdF
  have hlevel : levelOf (rdbAcknowledging s v) (ackValue s.opdF) = false := by
    rw [levelOf_sending (s := rdbAcknowledging s v) hc.1 rfl hport hpeer]
    exact hbit
  rw [pulseDr_eq, show (rdbAcknowledging s v).dr = ackValue s.opdF from rfl, hlevel, hshift] at hcall
  have hreturn := blockSteps_return (s := rdbAcknowledging s v) (st := .rd5) (m := 0xFE#8)
    (d := if s.opdF then 0x02#8 else 0x00#8) (seen := [false]) hc
  refine hcall.trans (hreturn.trans (k := 1) ?_)
  exact .quiet (x := none) rfl (holdsClockLow_callEnd hc) latch_idleFill rfl rfl ⟨hc, rfl, rfl⟩

/-- Settles O49: eight levels from the peer in the first transfer, its release, and the acknowledge in the second. -/
theorem rdbReceives : Obligations.RdbReceives := by
  intro s v more hb hset hsched hs hscl
  have hlow : HoldsClockLow s := holdsClockLow_of_boundary hb hset hs hscl
  let base : State := rdbListening s more
  have hc : OwnsClock base := hlow.1
  let later : List Turn := (bitsOf v).tail.flatMap (sendBit 6) ++ [.peer false false]
  let moves : List Turn := List.replicate 8 .block ++ later
  have hlisten : Leads 1 (accept .rd0 more 0x00#8 s) { base with sched := .peer (!v.getLsbD 7) false :: moves } :=
    BlockSteps.leads_moves (.held (t := base) (x := none) rfl hlow rfl hlow) (hsched.trans (sendMoves_eq v))
  have hdrive : Leads 1 _ (underPeer base moves (!v.getLsbD 7)) :=
    leads_peer (s := { base with sched := .peer (!v.getLsbD 7) false :: moves }) rfl hlow rfl
  have hfirst := (blockSteps_call (s := underPeer base moves (!v.getLsbD 7)) (st := .rd1) (m := 0xF0#8) (n := 7) rfl
    (.inl ⟨rfl, rfl⟩) rfl ⟨ownsClock_underPeer hc _ _, hlow.2⟩).leads_moves rfl
  rw [pulseDr_eq, levelOf_underPeer (s := base) rfl] at hfirst
  obtain ⟨low, hrest⟩ := leads_receive (s := base) (st := .rd1) (m := 0xF0#8) (d := shiftIn s.dr (v.getLsbD 7))
    (seen := [v.getLsbD 7]) (bitsOf v).tail (Nat.le_succ 7) hc rfl [.peer false false] (!v.getLsbD 7)
  have hbyte : (bitsOf v).tail.foldl shiftIn (shiftIn s.dr (v.getLsbD 7)) = v := shiftIn_bitsOf s.dr v
  rw [hbyte] at hrest
  have hrelease := leads_peer_callAt (s := underPeer base [.peer false false] low) (st := .rd1) (m := 0xF0#8)
    (x := .xf7) (n := 0) (d := v) (seen := bitsOf v) (ownsClock_underPeer hc _ _) rfl
  have hend := ((blockSteps_rdb_keep (s := underPeer base [] false) (v := v) (ownsClock_underPeer hc _ _)).trans
    (blockSteps_rdb_answer (ownsClock_underPeer hc _ _) hb.sdaPort rfl)).leads rfl
  refine (issue_leads hb.idle (hlisten.trans <| hdrive.trans <| hfirst.trans <| hrest.trans <| hrelease.trans hend) rfl
    (show 6 + 12 + 1 + 7 * 7 + 8 + 1 + 1 ≤ 128 by decide)).trans ?_
  simp [callEnd, rdbAcknowledging, underPeer, base, rdbListening, wireByte, hs.sda, hs.scl, hb.idle, hb.sdaDir, hscl,
    hlow.2.2]

end Sys2Proof.Proofs
end

section
/-! SUPPORT. Blocking: a blocked block stays so, and a host command ends or blocks within its budget, whatever the peer
does (60_exceptions.md R153; 42_transfer_primitive.md R112, R114; 40_line_control.md R87). -/

namespace Sys2Proof.Proofs

open Sys2Proof.Machine Sys2Proof.Safety

variable {s t : State} {st : MicroStep} {m : Byte} {x y : XferStep} {n k N : Nat}

/-! ### A blocked block -/

theorem busy_of_blocked (h : Blocked s) : busy s = true := by
  obtain ⟨-, st, x, hs, -⟩ := h
  rw [busy, hs]

/-- No micro-step both waits and calls the primitive. -/
theorem fetch_of_blocked (h : Blocked s) : fetch s = .move := by
  obtain ⟨-, st, x, hs, hop⟩ := h
  cases x with
  | none =>
    have hcall : callMask st = none := by rw [callMask, show commandOp st = .waitSclHigh from hop]
    simp only [fetch, hs, hcall]
  | some x => simp only [fetch, hs]

theorem turn_of_blocked (hset : Settled s) (h : Blocked s) (hsched : s.sched = []) : turn s = s := by
  obtain ⟨hlow, st, x, hs, hop⟩ := h
  exact (turn_nil hsched).trans ((waitForClock s st x hs hop hset).2 hlow)

/-- A state that a step leaves as it is stays for any number of steps. -/
theorem run_of_step_fixed {M : Host.Core} {s : M.State} (h : M.step s = .next s) (n : Nat) :
    M.run n s = .next s := by
  induction n with
  | zero => rfl
  | succ n ih => rw [Host.Core.run, h]; exact ih

/-- Settles O27: at a wait nothing is fetched, and from a settled state an unsatisfied wait writes nothing. -/
theorem blockedForEver : Obligations.BlockedForEver := by
  intro s hset h hsched n
  have hstep : step s = .next (turn s) := step_of_fetch_move (fetch_of_blocked h)
  rw [turn_of_blocked hset h hsched] at hstep
  exact run_of_step_fixed (M := core) hstep n

/-- An unsatisfied wait moves neither SEQ nor the clock line, settled or not. -/
theorem blocked_blockStep (h : Blocked s) : Blocked (blockStep s) := by
  obtain ⟨hlow, st, x, hs, hop⟩ := h
  have hline : sclLine (blockStep s) = sclLine s := by
    rw [blockStep_run hs, microStep, hop]
    exact sclLine_finish _ _
  have hseq : (blockStep s).seq = .run st x := by
    rw [blockStep_run hs, microStep_seq, nextSeq_wait hop, hlow, if_neg Bool.false_ne_true]
  exact ⟨hline.trans hlow, st, x, hseq, hop⟩

/-- In micro-program order no step follows itself. -/
theorem follow_ne (st : MicroStep) (x : Option XferStep) : follow st x ≠ .run st x := by
  cases x with
  | none => cases st <;> simp [follow, afterStep]
  | some x =>
    cases x
    case xf9 => cases st <;> simp [follow, afterXfer, afterStep]
    all_goals simp [follow, afterXfer]

/-- SEQ stays where it is only at a wait, with the clock line low. -/
theorem blocked_of_seq_stays {x : Option XferStep} (hs : s.seq = .run st x) (h : nextSeq st x s = .run st x) :
    Blocked s := by
  unfold nextSeq at h
  split at h
  · next hop =>
    split at h
    · exact absurd h (follow_ne st x)
    · next hlow => exact ⟨by simpa using hlow, st, x, hs, hop⟩
  · next hop => cases h; cases hop
  · next hop => split at h <;> cases h <;> cases hop
  · exact absurd h (follow_ne st x)

/-! ### Blocked for good -/

/-- The block is blocked, and what stands first among the coming moves does not come while it is: only the block
moves. -/
def Stuck (s : State) : Prop := Blocked s ∧ (turn s).sched = s.sched

theorem turn_of_sched_kept (h : (turn s).sched = s.sched) : turn s = blockStep s := by
  rcases turn_cases s with e | ⟨rest, hs, e⟩ | ⟨a, b, rest, hs, e⟩ | ⟨rest, hs, e⟩ | ⟨rest, hs, -, e⟩
  · exact e
  all_goals simp [e, hs] at h

/-- Which of the coming moves a turn takes depends on these and on BUSY alone. -/
theorem turn_sched_congr (hsched : t.sched = s.sched) (hb : busy t = busy s) : (turn t).sched = (turn s).sched := by
  unfold turn
  rw [hsched, hb]
  split
  case h_5 => split <;> simp [hsched]
  all_goals simp [hsched]

theorem stuck_turn (h : Stuck s) : Stuck (turn s) := by
  obtain ⟨hblocked, hkept⟩ := h
  have hafter : Blocked (turn s) := turn_of_sched_kept hkept ▸ blocked_blockStep hblocked
  exact ⟨hafter, turn_sched_congr hkept ((busy_of_blocked hafter).trans (busy_of_blocked hblocked).symm)⟩

/-! ### A call of the primitive, whichever way SCL_DIR is -/

/-- `s` with the clock line as an output. The steps of a call count in `s` as they do there, and the rules for `XferAt`,
which want the output, can be read there. -/
def drivingClock (s : State) : State := { s with sclDir := true }

theorem regs_drivingClock (s : State) : regs (drivingClock s) = drivingClock (regs s) := rfl

theorem applyOp_drivingClock (op : MicroOp) (s : State) :
    applyOp op (drivingClock s) = drivingClock (applyOp op s) := by
  cases op
  case strobe => unfold applyOp countStrobe drivingClock; dsimp only; split <;> rfl
  all_goals rfl

theorem xferAt_of_regs_eq (h : XferAt st m x n s) (hseq : t.seq = s.seq) (hregs : regs t = regs s) :
    XferAt st m x n t := by
  obtain ⟨-, hsclDir, -, hport, hcf, hcnt, hen, hxmask, -⟩ := registers_of_regs_eq hregs
  exact ⟨hseq.trans h.seq, hen.trans h.en, hsclDir.trans h.sclDir, hxmask.trans h.xmask, by
    rw [hport, hcf, hcnt]; exact h.regs⟩

/-- The master has released the clock at the only wait of the primitive. -/
theorem nextSeq_drivingClock (h : XferAt st m x n (drivingClock s)) :
    nextSeq st (some x) (drivingClock s) = nextSeq st (some x) s := by
  cases x
  case xf4 =>
    have hport : s.sclPort = true := h.regs.1
    rw [nextSeq_wait rfl, nextSeq_wait rfl, sclLine_eq_not_peer hport, sclLine_eq_not_peer (s := drivingClock s) hport]
    rfl
  all_goals rfl

theorem seq_blockStep_drivingClock (h : XferAt st m x n (drivingClock s)) :
    (blockStep (drivingClock s)).seq = (blockStep s).seq := by
  have hs : s.seq = .run st (some x) := h.seq
  rw [blockStep_run h.seq, blockStep_run hs, microStep_seq, microStep_seq, nextSeq_drivingClock h]

theorem XferAt.to_drivingClock_blockStep (h : XferAt st m x n (drivingClock s))
    (h' : XferAt st m y k (blockStep (drivingClock s))) : XferAt st m y k (drivingClock (blockStep s)) := by
  have hs : s.seq = .run st (some x) := h.seq
  refine xferAt_of_regs_eq h' (seq_blockStep_drivingClock h).symm ?_
  rw [blockStep_run h.seq, blockStep_run hs, regs_microStep, applyOp_drivingClock, regs_drivingClock, regs_drivingClock,
    regs_microStep]

/-! ### How many block steps are to come -/

/-- The block steps from a micro-step to the end of its command when the clock is free, the steps inside its calls of
the primitive among them (R111, R112, R135 to R137). -/
def stepsAhead : Sequencer → Nat
  | .run .wb5 _ | .run .rd6 _ => 1
  | .run .wb4 _ => 2
  | .run .rd5 _ => 12
  | .run .wb3 _ | .run .rd4 _ => 13
  | .run .wb2 _ | .run .rd3 _ => 14
  | .run .rd2 _ => 15
  | .run .wb1 _ => 67
  | .run .wb0 _ | .run .rd1 _ => 68
  | .run .wa0 _ | .run .rd0 _ => 69
  | p => stepsToEnd p

/-- WRA and RDB are the longest commands (log entry 3). -/
theorem stepsAhead_le (st : MicroStep) : stepsAhead (.run st none) ≤ 69 := by
  cases st <;> decide

theorem stepsAhead_afterStep_lt (st : MicroStep) : stepsAhead (afterStep st) < stepsAhead (.run st none) := by
  cases st <;> decide

/-- A call is 52 steps in byte mode and 10 in bit mode (R112). -/
theorem stepsAhead_call_lt (hop : commandOp st = .callXfer m) :
    stepsLeft .xf0 (pulsesOf m) + stepsAhead (afterStep st) < stepsAhead (.run st none) := by
  cases st <;> cases hop <;> decide

/-- The masks of R64 are the only ones in the micro-programs. -/
theorem mask_of_call (hop : commandOp st = .callXfer m) : m = 0xF0#8 ∨ m = 0xFE#8 := by
  cases st <;> cases hop <;> decide

/-- With the clock free, `n` block steps lead to the end of the command: it uses no transfer or the unit is enabled, and
inside a transfer SR stands where the pulses to come want it. -/
inductive Ahead : Nat → State → Prop where
  | outside {s : State} (hx : inXfer s = false) (hcounts : s.en = true ∨ ∃ op, IsProtocol op ∧ Within op s.seq) :
    Ahead (stepsAhead s.seq) s
  | inside {st : MicroStep} {m : Byte} {x : XferStep} {n : Nat} {s : State} (hop : commandOp st = .callXfer m)
    (hat : XferAt st m x n (drivingClock s)) : Ahead (stepsLeft x n + stepsAhead (afterStep st)) s

theorem inXfer_of_afterStep (h : s.seq = afterStep st) : inXfer s = false := by
  rw [inXfer, h]
  cases st <;> rfl

/-- A command stands at the step after `st`. -/
theorem ahead_afterStep (h : s.seq = afterStep st) (hcounts : s.en = true ∨ IsProtocol (opOf st)) :
    Ahead (stepsAhead (afterStep st)) s := by
  rw [← h]
  refine .outside (inXfer_of_afterStep h) (hcounts.imp_right fun hop => ⟨_, hop, ?_⟩)
  rw [h]
  exact (afterStep_within hop).1

theorem Ahead.withSched (h : Ahead n s) (moves : List Turn) : Ahead n { s with sched := moves } := by
  cases h with
  | outside hx hcounts => exact .outside (s := { s with sched := moves }) hx hcounts
  | inside hop hat => exact .inside hop (hat.withSched moves)

theorem Ahead.peerStep_keeps (h : Ahead n s) (a b : Bool) : Ahead n (peerStep a b s) := by
  have hseq := peerStep_seq a b s
  cases h with
  | outside hx hcounts =>
    rw [← hseq] at hcounts ⊢
    refine .outside ?_ (hcounts.imp_left fun he => ?_)
    · simpa only [inXfer, hseq] using hx
    · exact kept_en.peer a b s he
  | inside hop hat => exact .inside hop (xferAt_of_regs_eq hat hseq (by simp only [regs_drivingClock, regs_peerStep]))

/-! ### One block step -/

/-- A block step outside the primitive stays at a wait, or goes on, or calls. -/
theorem ahead_blockStep_outside (hs : s.seq = .run st none) (hcounts : s.en = true ∨ IsProtocol (opOf st)) :
    (Blocked s ∧ Ahead (stepsAhead s.seq) (blockStep s)) ∨ ∃ k < stepsAhead s.seq, Ahead k (blockStep s) := by
  have hseq : (blockStep s).seq = nextSeq st none s := by rw [blockStep_run hs, microStep_seq]
  have hcounts' : (blockStep s).en = true ∨ IsProtocol (opOf st) := hcounts.imp_left (kept_en.block s)
  rw [hs]
  rcases nextSeq_none_cases st s with hnext | ⟨-, hnext⟩ | ⟨m, hop, hnext⟩ <;> rw [hnext] at hseq
  · exact .inr ⟨_, stepsAhead_afterStep_lt st, ahead_afterStep hseq hcounts'⟩
  · refine .inl ⟨blocked_of_seq_stays hs hnext, ?_⟩
    rw [← hseq]
    exact .outside (by rw [inXfer, hseq]; rfl) (hcounts'.imp_right fun hop => ⟨_, hop, .inr ⟨st, hseq, rfl⟩⟩)
  · have he : s.en = true := hcounts.resolve_right fun hprotocol => not_call_of_isProtocol hprotocol m hop
    have hat : XferAt st m .xf0 (pulsesOf m) (drivingClock (blockStep s)) := by
      rw [blockStep_run hs, microStep_call s hop]
      constructor <;> simp [drivingClock, callXfer, he, XferRegs]
    exact .inr ⟨_, stepsAhead_call_lt hop, .inside hop hat⟩

/-- A block step inside the primitive returns, or stays at the wait, or goes on. -/
theorem ahead_blockStep_inside (hop : commandOp st = .callXfer m) (hat : XferAt st m x n (drivingClock s)) :
    (Blocked s ∧ Ahead (stepsLeft x n + stepsAhead (afterStep st)) (blockStep s)) ∨
    ∃ k < stepsLeft x n + stepsAhead (afterStep st), Ahead k (blockStep s) := by
  have hs : s.seq = .run st (some x) := hat.seq
  have hseq := seq_blockStep_drivingClock hat
  rcases hat.blockStep_cases (mask_of_call hop) with ⟨-, hret⟩ | ⟨-, hstay⟩ | ⟨y, k, hnext, hgo⟩
  · have hpos := stepsLeft_pos x n
    exact .inr ⟨_, by omega, ahead_afterStep (hseq.symm.trans hret.seq) (.inl (kept_en.block s hat.en))⟩
  · refine .inl ⟨blocked_of_seq_stays hs ?_, .inside hop (hat.to_drivingClock_blockStep hstay)⟩
    rw [← microStep_seq, ← blockStep_run hs]
    exact hseq.symm.trans hstay.seq
  · have hless := hnext.stepsLeft_eq
    exact .inr ⟨_, by omega, .inside hop (hat.to_drivingClock_blockStep hgo)⟩

/-- A block step of a running command brings the end nearer, or the block is blocked. -/
theorem Ahead.blockStep_cases (h : Ahead n s) (hb : busy s = true) :
    (Blocked s ∧ Ahead n (blockStep s)) ∨ ∃ k < n, Ahead k (blockStep s) := by
  cases h with
  | inside hop hat => exact ahead_blockStep_inside hop hat
  | outside hx hcounts =>
    cases hs : s.seq with
    | idle => simp [busy, hs] at hb
    | run st x =>
      cases x with
      | some x => simp [inXfer, hs] at hx
      | none =>
        rw [← hs]
        refine ahead_blockStep_outside hs (hcounts.imp_right ?_)
        rintro ⟨op, hop, hidle | ⟨st', hs', rfl⟩⟩
        · cases hs.symm.trans hidle
        · cases hs.symm.trans hs'
          exact hop

/-! ### The turns of a command -/

/-- A turn takes a coming move, or brings the end nearer, or the block is stuck. -/
theorem Ahead.turn_cases (h : Ahead n s) (hn : noReset s.sched = true) (hb : busy s = true) :
    Stuck s ∨ ∃ k, Ahead k (turn s) ∧ (turn s).sched.length + k < s.sched.length + n := by
  rcases turn_cases_of_noReset hn hb with ⟨e, -⟩ | ⟨rest, hs, e⟩ | ⟨a, b, rest, hs, e⟩
  · rcases h.blockStep_cases hb with ⟨hblocked, -⟩ | ⟨k, hk, hgo⟩
    · exact .inl ⟨hblocked, by rw [e, blockStep_sched]⟩
    · exact .inr ⟨k, e ▸ hgo, by rw [e, blockStep_sched]; omega⟩
  · have hlen : (turn s).sched.length + 1 = s.sched.length := by rw [e, blockStep_sched, hs, List.length_cons]
    rcases (h.withSched rest).blockStep_cases hb with ⟨-, hstay⟩ | ⟨k, hk, hgo⟩
    · exact .inr ⟨n, e ▸ hstay, by omega⟩
    · exact .inr ⟨k, e ▸ hgo, by omega⟩
  · have hlen : (turn s).sched.length + 1 = s.sched.length := by rw [e, peerStep_sched, hs, List.length_cons]
    exact .inr ⟨n, e ▸ (h.withSched rest).peerStep_keeps a b, by omega⟩

theorem seq_of_not_busy (h : busy s = false) : s.seq = .idle := by
  by_contra hne
  exact absurd ((busy_of_ne_idle hne).symm.trans h) (by decide)

/-- With a turn for each coming move and for each step to come, a command ends or blocks. -/
theorem Ahead.ends_or_blocks (h : Ahead n s) (hn : noReset s.sched = true) (hN : s.sched.length + n ≤ N) :
    (runWhile busy N s).seq = .idle ∨ Blocked (runWhile busy N s) := by
  induction N generalizing s n with
  | zero =>
    cases hb : busy s with
    | false => exact .inl (seq_of_not_busy hb)
    | true =>
      rcases h.turn_cases hn hb with hstuck | ⟨k, -, hlt⟩
      · exact .inr hstuck.1
      · omega
  | succ N ih =>
    cases hb : busy s with
    | false =>
      rw [runWhile_stop hb]
      exact .inl (seq_of_not_busy hb)
    | true =>
      rcases h.turn_cases hn hb with hstuck | ⟨k, hgo, hlt⟩
      · exact .inr (runWhile_keeps Stuck (fun _ hv _ => stuck_turn hv) (N + 1) hstuck).1
      · rw [runWhile_go hb]
        exact ih hgo (noReset_turn hn) (by omega)

/-- A command that needs no transfer, or has the unit enabled, is given turns enough to end or block. -/
theorem runCommand_ends_or_blocks {f : Bool} {d : Byte} (hn : noReset s.sched = true)
    (hcounts : s.en = true ∨ IsProtocol (opOf st)) :
    (runCommand (accept st f d s)).seq = .idle ∨ Blocked (runCommand (accept st f d s)) := by
  have h : Ahead (stepsAhead (.run st none)) (accept st f d s) :=
    .outside (s := accept st f d s) rfl (hcounts.imp_right fun hop => ⟨_, hop, .inr ⟨st, rfl, rfl⟩⟩)
  exact h.ends_or_blocks hn (Nat.add_le_add_left ((stepsAhead_le st).trans (by decide)) _)

/-- INIT, START and STOP begin at a micro-step of their own. -/
theorem isProtocol_of_firstStep {i : Instr} (hi : i ∈ [Instr.init, .start, .stop]) (hst : firstStep i = some st) :
    IsProtocol (opOf st) := by
  simp only [List.mem_cons, List.not_mem_nil, or_false] at hi
  rcases hi with rfl | rfl | rfl <;> cases hst <;> simp [IsProtocol, opOf]

/-- Settles O28: each turn of a command takes a coming move or brings its end nearer, until the block is stuck; INIT has
no wait. -/
theorem hangOnlyAtWait : Obligations.HangOnlyAtWait := by
  intro s t i hi hn hcounts h
  have hidle : s.seq = .idle := by
    obtain ⟨st, f, d, hexec⟩ := exec_of_isCommand hi
    exact (issue_next ((hexec s).symm.trans h)).1
  refine ⟨?halts, fun hinit => ?init⟩
  case halts =>
    obtain ⟨st, f, d, hst, rfl⟩ := exec_next_of_idle hidle h
    exact runCommand_ends_or_blocks hn (hcounts.imp_right fun hmem => isProtocol_of_firstStep hmem hst)
  case init =>
    subst hinit
    obtain ⟨u, hu, hend, -⟩ := initResult s hidle hn
    cases h.symm.trans hu
    exact hend

end Sys2Proof.Proofs
end

section
/-! SUPPORT. Reset as one move (70_reset_and_hazards.md R170, R171). -/

namespace Sys2Proof.Proofs

open Sys2Proof.Machine Sys2Proof.Safety

variable {s : State} {rest : List Turn}

theorem turn_reset (h : s.sched = .reset :: rest) : turn s = resetBlock { s with sched := rest } := by
  simp only [turn, h]

/-- A reset that comes next is a single move, also at a call step (R170). -/
theorem fetch_reset (h : s.sched = .reset :: rest) : fetch s = .move := by
  unfold fetch
  rw [h]
  split
  · rfl
  · rfl
  · split <;> rfl

theorem regs_resetBlock (s : State) : regs (resetBlock s) = regs State.reset := regs_finish _ _

/-- The settle() at the end of reset finds the unit disabled, so nothing shifts. -/
theorem dr_resetBlock (s : State) : (resetBlock s).dr = 0xFF#8 := by
  rw [resetBlock, finish_dr, settle_of_disabled rfl]
  rfl

/-- Settles O2: no register of R32 is left as it was, and settle() does the rest with the unit disabled. -/
theorem resetAbandonsCommand : Obligations.ResetAbandonsCommand := by
  intro s rest hs
  refine ⟨step_of_fetch_move (fetch_reset hs), ?_⟩
  rw [turn_reset hs]
  generalize hu : resetBlock { s with sched := rest } = u
  have hpeer : u.peerSdaLow = s.peerSdaLow ∧ u.peerSclLow = s.peerSclLow ∧ u.sched = rest :=
    hu ▸ ⟨finish_peerSdaLow _ _, finish_peerSclLow _ _, finish_sched _ _⟩
  obtain ⟨hsdaLow, hsclLow, hsched⟩ := hpeer
  obtain ⟨hsdaDir, hsclDir, hsdaPort, hsclPort, hcf, hcnt, hen, -, -, -, -, -, hres⟩ :=
    registers_of_regs_eq (hu ▸ regs_resetBlock { s with sched := rest })
  have hdr : u.dr = 0xFF#8 := hu ▸ dr_resetBlock _
  obtain ⟨hclock, hlatch⟩ : Settled u := hu ▸ settled_finish _ _
  have hol : u.ol = true := (hlatch (.inl hen)).trans (hdr ▸ latch_idleFill.symm)
  have hsclq : u.sclq = !s.peerSclLow := hclock.trans ((sclLine_eq_not_peer hsclPort).trans (congrArg not hsclLow))
  have hscl : masterSclLow u = false := by rw [masterSclLow, hsclDir]; rfl
  have hsda : masterSdaLow u = false := by rw [masterSdaLow, hsdaDir]; rfl
  have hidle : u.seq = .idle := hu ▸ resetBlock_seq _
  exact ⟨hsdaDir, hsclDir, hsdaPort, hsclPort, hdr, hol, hcf, hcnt, hen, hsclq, hidle, hres, hscl, hsda,
    hsdaLow, hsclLow, hsched⟩

end Sys2Proof.Proofs
end

section
/-! SUPPORT. START and STOP against a peer that holds SDA low, and STOP on an idle bus
(70_reset_and_hazards.md R182, R183). -/

namespace Sys2Proof.Proofs

open Sys2Proof.Machine Sys2Proof.Safety

variable {s : State} {st : MicroStep} {port : Bool}

/-! ### STOP on an idle bus -/

/-- Settles O39: SP0 pulls SDA under a high clock, which is the START condition, and SP4 lets it go. -/
theorem stopOnIdleBus : Obligations.StopOnIdleBus := by
  intro s hb hset hsched hsilent hscl hol
  have hd : Driven s := driven_of_boundary hb hsched hsilent
  let first : State := accept .sp0 false 0x00#8 s
  let pulled : State := { first with
    seq := .run .sp1 none, sdaPort := false, obsPending := none, obsTrace := s.obsTrace ++ [.start] }
  have hpulled : Settled pulled :=
    Driven.settled hd (hset.1.trans hd.sclLine_eq) fun hlow => absurd (hscl.symm.trans hlow) (by decide)
  have hsp0 : Leads 1 first pulled :=
    .step (w := { first with seq := .run .sp1 none, sdaPort := false }) hd.sched rfl rfl
      (finish_sda_fall hd hd hpulled hscl hscl hb.sdaPort hol rfl)
  have hsp1 : Leads 1 pulled { pulled with seq := .run .sp2 none } :=
    .pass .sp1 hd.sched hpulled rfl (applyOp_sclHigh_of_released hscl) rfl
  have hrest := leads_stop_of_high (s := { pulled with seq := .run .sp2 none }) hd hpulled rfl hscl rfl
  refine (issue_leads hb.idle (hsp0.trans (hsp1.trans hrest)) rfl (by decide)).trans ?_
  simp [pulled, first, accept, loadOperands, hol, hb.idle, hb.sdaPort]

/-! ### SDA held by the peer -/

theorem sdaLine_of_peer (h : s.peerSdaLow = true) : sdaLine s = false := by simp [sdaLine, h]

/-- While the peer holds SDA low, a step that writes the data line's latch at most moves no line (R183). -/
theorem blockSteps_sdaPort_held (hs : s.seq = .run st none) (hset : Settled s) (hheld : s.peerSdaLow = true)
    (hop : applyOp (commandOp st) s = { s with sdaPort := port }) :
    BlockSteps 1 s { s with sdaPort := port, seq := nextSeq st none s } := by
  refine .one hs ?_
  rw [microStep, opAt, hop]
  refine finish_of_same (a := { s with sdaPort := port, seq := nextSeq st none s }) hset rfl ?_
  exact (sdaLine_of_peer hheld).trans (sdaLine_of_peer (s := { s with sdaPort := port, seq := _ }) hheld).symm

/-- The clock rises while the peer holds SDA low: a 0 enters DR, and a data bit 0 is pending. -/
theorem blockSteps_clock_rise_held (hc : OwnsClock s) (hheld : s.peerSdaLow = true) (hs : s.seq = .run st none)
    (hop : commandOp st = .sclHigh) (hport : s.sclPort = false) (hclock : s.sclq = false) :
    BlockSteps 1 s { s with
      seq := afterStep st, sclPort := true, sclq := true, dr := shiftIn s.dr false, obsPending := some false } := by
  refine .one hs ?_
  have hnext : nextSeq st none s = afterStep st := by simp [nextSeq, opAt, hop, follow]
  rw [microStep, opAt, hop, hnext]
  exact finish_of_rise (a := { s with sclPort := true, seq := afterStep st }) (hc.sclLine_eq.trans hport) hc.1 hclock
    (OwnsClock.sclLine_eq (s := { s with sclPort := true, seq := afterStep st }) hc) (sdaLine_of_peer hheld)

/-- STOP from its wait on, with the clock high: letting SDA go moves nothing. -/
theorem blockSteps_stop_held (hc : OwnsClock s) (hset : Settled s) (hheld : s.peerSdaLow = true)
    (hs : s.seq = .run .sp2 none) (hscl : s.sclPort = true) :
    BlockSteps 4 s { s with seq := .idle, sdaPort := true } := by
  have hwait : nextSeq .sp2 none s = .run .sp3 none := if_pos (hc.sclLine_eq.trans hscl)
  have hsp2 : BlockSteps 1 s { s with seq := .run .sp3 none } := hwait ▸ blockSteps_sdaPort_held hs hset hheld rfl
  have hsp3 := blockSteps_sdaPort_held (s := { s with seq := .run .sp3 none }) rfl hset hheld rfl
  have hsp4 := blockSteps_sdaPort_held (s := { s with seq := .run .sp4 none }) rfl hset hheld rfl
  have hsp5 := blockSteps_sdaPort_held (s := { s with seq := .run .sp5 none, sdaPort := true }) rfl hset hheld rfl
  exact hsp2.trans <| hsp3.trans <| hsp4.trans hsp5

/-- START from its wait on, with the clock high: pulling SDA moves nothing, and the clock falls. -/
theorem blockSteps_start_held (hc : OwnsClock s) (hset : Settled s) (hheld : s.peerSdaLow = true)
    (hs : s.seq = .run .st2 none) (hscl : s.sclPort = true) :
    BlockSteps 6 s { s with
      seq := .idle, sdaPort := true, sclPort := false, sclq := false, ol := s.dr.getLsbD 7, obsPending := none
      obsTrace := s.obsTrace ++ s.obsPending.toList.map BusEvent.bit } := by
  have hline : sclLine s = true := hc.sclLine_eq.trans hscl
  have hwait : nextSeq .st2 none s = .run .st3 none := if_pos hline
  have hst2 : BlockSteps 1 s { s with seq := .run .st3 none } := hwait ▸ blockSteps_sdaPort_held hs hset hheld rfl
  have hst3 := blockSteps_sdaPort_held (s := { s with seq := .run .st3 none }) rfl hset hheld rfl
  have hst4 := blockSteps_sdaPort_held (s := { s with seq := .run .st4 none }) rfl hset hheld rfl
  have hst5 := blockSteps_sdaPort_held (s := { s with seq := .run .st5 none, sdaPort := false }) rfl hset hheld rfl
  let low : State := { s with
    seq := .run .st7 none, sdaPort := false, sclPort := false, sclq := false, ol := s.dr.getLsbD 7, obsPending := none
    obsTrace := s.obsTrace ++ s.obsPending.toList.map BusEvent.bit }
  have hst6 : BlockSteps 1 { s with seq := .run .st6 none, sdaPort := false } low := by
    refine .one (st := .st6) (x := none) rfl ?_
    exact finish_of_fall hline
      (OwnsClock.sclLine_eq (s := { s with sdaPort := false, sclPort := false, seq := .run .st7 none }) hc)
  have hst7 : BlockSteps 1 low { low with seq := .idle, sdaPort := true } :=
    .quiet (x := none) rfl ⟨hc, rfl, rfl⟩ rfl rfl rfl ⟨hc, rfl, rfl⟩
  exact hst2.trans <| hst3.trans <| hst4.trans <| hst5.trans <| hst6.trans hst7

/-- Settles O41: no fall of SDA is seen, and the clock's pulse is seen as the level that the peer holds. -/
theorem startAgainstHeldData : Obligations.StartAgainstHeldData := by
  intro s hb hset hsched hheld hfree
  have hc : OwnsClock s := ⟨hb.en, hb.sclDir, hfree⟩
  have hst0 := blockSteps_sdaPort_held (s := accept .st0 false 0x00#8 s) rfl hset hheld rfl
  let ready : State := { accept .st0 false 0x00#8 s with seq := .run .st1 none, sdaPort := true }
  refine ⟨fun hscl => ?high, fun hscl => ?low⟩
  case high =>
    have hst1 := blockSteps_sdaPort_held (s := ready) rfl hset hheld (applyOp_sclHigh_of_released hscl)
    have hrest := blockSteps_start_held (s := { ready with seq := .run .st2 none }) hc hset hheld rfl hscl
    exact ⟨_, issue_leads hb.idle ((hst0.trans (hst1.trans hrest)).leads hsched) rfl (by decide), rfl, rfl, rfl⟩
  case low =>
    have hclock : s.sclq = false := hset.1.trans (hc.sclLine_eq.trans hscl)
    have hst1 := blockSteps_clock_rise_held (s := ready) hc hheld rfl rfl hscl hclock
    have hrest := blockSteps_start_held (s := { ready with
      seq := .run .st2 none, sclPort := true, sclq := true, dr := shiftIn s.dr false, obsPending := some false })
      hc (OwnsClock.settled_of_high hc rfl rfl) hheld rfl rfl
    exact ⟨_, issue_leads hb.idle ((hst0.trans (hst1.trans hrest)).leads hsched) rfl (by decide), rfl, rfl, rfl⟩

/-- Settles O58: nothing that SDA's latch does reaches the wire; only the clock moves, and only up. -/
theorem stopAgainstHeldData : Obligations.StopAgainstHeldData := by
  intro s hb hset hsched hheld hfree
  have hc : OwnsClock s := ⟨hb.en, hb.sclDir, hfree⟩
  have hsp0 := blockSteps_sdaPort_held (s := accept .sp0 false 0x00#8 s) rfl hset hheld rfl
  let pulled : State := { accept .sp0 false 0x00#8 s with seq := .run .sp1 none, sdaPort := false }
  refine ⟨fun hscl => ?high, fun hscl => ?low⟩
  case high =>
    have hsp1 := blockSteps_sdaPort_held (s := pulled) rfl hset hheld (applyOp_sclHigh_of_released hscl)
    have hrest := blockSteps_stop_held (s := { pulled with seq := .run .sp2 none }) hc hset hheld rfl hscl
    refine (issue_leads hb.idle ((hsp0.trans (hsp1.trans hrest)).leads hsched) rfl (by decide)).trans ?_
    simp [pulled, accept, loadOperands, hb.idle, hb.sdaPort]
  case low =>
    have hclock : s.sclq = false := hset.1.trans (hc.sclLine_eq.trans hscl)
    have hsp1 := blockSteps_clock_rise_held (s := pulled) hc hheld rfl rfl hscl hclock
    have hrest := blockSteps_stop_held (s := { pulled with
      seq := .run .sp2 none, sclPort := true, sclq := true, dr := shiftIn s.dr false, obsPending := some false })
      hc (OwnsClock.settled_of_high hc rfl rfl) hheld rfl rfl
    refine (issue_leads hb.idle ((hsp0.trans (hsp1.trans hrest)).leads hsched) rfl (by decide)).trans ?_
    simp [pulled, accept, loadOperands, shiftIn, hb.idle, hb.sdaPort]

end Sys2Proof.Proofs
end

section
/-! SUPPORT. WRB on a bus whose clock is high (70_reset_and_hazards.md R175): XF0 lets the clock fall, and from there on
WRB runs as it does on a bus with the clock low. -/

namespace Sys2Proof.Proofs

open Sys2Proof.Machine Sys2Proof.Safety

variable {s t u : State} {first : MicroStep} {f : Bool} {d : Byte} {k : Nat}

/-- Two states whose commands lead to one state in as many turns have one outcome. -/
theorem issue_eq_of_leads (hs : s.seq = .idle) (ht : t.seq = .idle) (hsched : s.sched = t.sched)
    (h : Leads k (accept first f d s) u) (h' : Leads k (accept first f d t) u) (hk : k ≤ 128) :
    issue first f d s = issue first f d t := by
  have hle : k ≤ turnBudget (accept first f d s) := Nat.le_add_left_of_le hk
  obtain ⟨r, hr⟩ := Nat.exists_eq_add_of_le' hle
  have hbudget : turnBudget (accept first f d t) = r + k := (congrArg (·.length + 128) hsched.symm).trans hr
  rw [issue_idle hs, issue_idle ht, runCommand, runCommand, hbudget, hr, h, h']

/-- The bus after a fall of the clock (R58). -/
def clockFallen (s : State) : State :=
  { s with
    sclPort := false, sclq := false, ol := s.dr.getLsbD 7, obsPending := none
    obsTrace := s.obsTrace ++ s.obsPending.toList.map BusEvent.bit }

/-- WRB at XF1 of its first transfer: the byte stands in DR and in the latch, the clock is low. -/
def wrbClockLow (s : State) (d : Byte) : State :=
  { clockFallen s with
    seq := .run .wb1 (some .xf1), xmask := 0xF0#8, opdF := false, opdD := d, dr := d, ol := d.getLsbD 7 }

/-- With the clock low on entry the three steps to XF1 move no line. -/
theorem blockSteps_wrb_low (hb : HoldsClockLow s) (hpending : s.obsPending = none) :
    BlockSteps 3 (accept .wb0 false d s) (wrbClockLow s d) := by
  have hload : BlockSteps 1 (accept .wb0 false d s) (wrbLoaded s d) := .held (x := none) rfl hb rfl hb
  let called : State := { wrbLoaded s d with seq := .run .wb1 (some .xf0), xmask := 0xF0#8 }
  have hcall : BlockSteps 1 (wrbLoaded s d) called := .held (x := none) rfl hb rfl hb
  have hlow : BlockSteps 1 called (wrbClockLow s d) := by
    refine .held (x := some .xf0) rfl hb ?_ ⟨hb.1, rfl, rfl⟩
    simp [called, wrbLoaded, wrbClockLow, clockFallen, opAt, xferOp, applyOp, nextSeq, follow, afterXfer, hpending,
      hb.2.2]
  exact hload.trans (hcall.trans hlow)

/-- With the clock high on entry DR is written behind a closed latch, and the fall of the clock at XF0 is seen. -/
theorem blockSteps_wrb_high (hc : OwnsClock s) (hset : Settled s) (hscl : s.sclPort = true) :
    BlockSteps 3 (accept .wb0 false d s) (wrbClockLow s d) := by
  have hline : sclLine s = true := hc.sclLine_eq.trans hscl
  have hclock : s.sclq = true := hset.1.trans hline
  let loaded : State := { accept .wb0 false d s with seq := .run .wb1 none, dr := d }
  have hloaded : Settled loaded := OwnsClock.settled_of_high hc hscl hclock
  have hload : BlockSteps 1 (accept .wb0 false d s) loaded :=
    .one (x := none) rfl (finish_of_same (a := loaded) hloaded rfl rfl)
  let called : State := { loaded with seq := .run .wb1 (some .xf0), xmask := 0xF0#8 }
  have hcall : BlockSteps 1 loaded called :=
    .one (x := none) rfl (finish_of_same (a := called) (OwnsClock.settled_of_high hc hscl hclock) rfl rfl)
  have hfall : BlockSteps 1 called (wrbClockLow s d) :=
    .one (x := some .xf0) rfl (finish_of_fall hline
      (OwnsClock.sclLine_eq (s := { called with sclPort := false, seq := .run .wb1 (some .xf1) }) hc))
  exact hload.trans (hcall.trans hfall)

/-- Settles O59: WRB ends as it does on the bus whose clock has fallen already. -/
theorem wrbWithoutStart : Obligations.WrbWithoutStart := by
  intro s d hb hset hsched hs hscl
  have hc : OwnsClock s := ⟨hb.en, hb.sclDir, hs.scl⟩
  have hlow : HoldsClockLow (clockFallen s) := ⟨hc, rfl, rfl⟩
  have hfallen : Settled (clockFallen s) := ⟨hlow.low.symm, fun _ => rfl⟩
  have hmeet : wrbClockLow (clockFallen s) d = wrbClockLow s d := by simp [wrbClockLow, clockFallen]
  calc exec (.wrb d) s
    _ = exec (.wrb d) (clockFallen s) :=
      issue_eq_of_leads (k := 3) hb.idle hb.idle rfl ((blockSteps_wrb_high hc hset hscl).leads hsched)
        (hmeet ▸ (blockSteps_wrb_low hlow rfl).leads hsched) (by decide)
    _ = _ := wrbOnSilentBus (clockFallen s) d ⟨hb.idle, hb.sdaDir, hb.sclDir, hb.sdaPort, hb.en⟩ hfallen hsched
      ⟨hs.sda, hs.scl⟩ rfl

end Sys2Proof.Proofs
end

section
/-! SUPPORT. START before INIT: with both directions input the master moves no line (70_reset_and_hazards.md R174). -/

namespace Sys2Proof.Proofs

open Sys2Proof.Machine Sys2Proof.Safety

variable {s a b : State} {st : MicroStep}

/-- The unit is not enabled, both lines are inputs, and the peer leaves the clock alone. -/
def Listening (s : State) : Prop :=
  s.en = false ∧ s.sdaDir = false ∧ s.sclDir = false ∧ s.peerSclLow = false

theorem Listening.sclLine_eq (h : Listening s) : sclLine s = true := by
  obtain ⟨-, -, hdir, hfree⟩ := h
  simp [sclLine, masterSclLow, hdir, hfree]

theorem Listening.sdaLine_eq (h : Listening s) : sdaLine s = !s.peerSdaLow := by
  obtain ⟨-, hdir, -⟩ := h
  simp [sdaLine, masterSdaLow, hdir]

/-- A step that leaves the peer's level on SDA is settle() alone: the latch follows DR, and the clock is high. -/
theorem finish_of_listening (hb : Listening b) (ha : Listening a) (hsda : b.peerSdaLow = a.peerSdaLow) :
    finish b a = { a with ol := a.dr.getLsbD 7, sclq := true } := by
  have hsettle : settle a = { a with ol := a.dr.getLsbD 7, sclq := true } := by
    rw [settle_of_disabled ha.1, ha.sclLine_eq]
  have hsettled : Listening (settle a) := hsettle ▸ ha
  rw [finish, ← hsettle, observe_of_same]
  · rw [hb.sclLine_eq, hsettled.sclLine_eq]
  · rw [hb.sdaLine_eq, hsettled.sdaLine_eq, settle_peerSdaLow, hsda]

/-- The state of START before INIT at `q`, with the level latches `sda` and `scl`. -/
def startListening (s : State) (q : Sequencer) (sda scl : Bool) : State :=
  { s with seq := q, sdaPort := sda, sclPort := scl, ol := s.dr.getLsbD 7, sclq := true }

/-- Before INIT a step of START writes the level latches and moves no line. -/
theorem blockSteps_listening {q : Sequencer} {sda scl : Bool} (hl : Listening s) (hs : s.seq = .run st none)
    (hop : applyOp (commandOp st) s = { s with sdaPort := sda, sclPort := scl }) (hnext : nextSeq st none s = q) :
    BlockSteps 1 s (startListening s q sda scl) := by
  refine .one hs ?_
  rw [microStep, opAt, hop, hnext]
  exact finish_of_listening (a := { s with sdaPort := sda, sclPort := scl, seq := q }) hl hl rfl

/-- A step of START after the first. -/
theorem blockSteps_startListening {q : Sequencer} {sda' scl' : Bool} (st : MicroStep) (sda scl : Bool)
    (hl : Listening s)
    (hop : applyOp (commandOp st) (startListening s (.run st none) sda scl) = startListening s (.run st none) sda' scl')
    (hnext : nextSeq st none (startListening s (.run st none) sda scl) = q) :
    BlockSteps 1 (startListening s (.run st none) sda scl) (startListening s q sda' scl') :=
  blockSteps_listening (s := startListening s (.run st none) sda scl) hl rfl hop hnext

/-- Settles O31: no step of START moves a line, and its wait finds the clock high. -/
theorem startBeforeInit : Obligations.StartBeforeInit := by
  intro s hidle hsched hen hsda hscl hfree
  let a := accept .st0 false 0x00#8 s
  have hl : Listening a := ⟨hen, hsda, hscl, hfree⟩
  have hwait : nextSeq .st2 none (startListening a (.run .st2 none) true true) = .run .st3 none :=
    if_pos (Listening.sclLine_eq (s := startListening a (.run .st2 none) true true) hl)
  have hst0 : BlockSteps 1 a (startListening a (.run .st1 none) true s.sclPort) := blockSteps_listening hl rfl rfl rfl
  have hst1 : BlockSteps 1 _ (startListening a (.run .st2 none) true true) :=
    blockSteps_startListening .st1 true s.sclPort hl rfl rfl
  have hst2 : BlockSteps 1 _ (startListening a (.run .st3 none) true true) :=
    blockSteps_startListening .st2 true true hl rfl hwait
  have hst3 : BlockSteps 1 _ (startListening a (.run .st4 none) true true) :=
    blockSteps_startListening .st3 true true hl rfl rfl
  have hst4 : BlockSteps 1 _ (startListening a (.run .st5 none) false true) :=
    blockSteps_startListening .st4 true true hl rfl rfl
  have hst5 : BlockSteps 1 _ (startListening a (.run .st6 none) false true) :=
    blockSteps_startListening .st5 false true hl rfl rfl
  have hst6 : BlockSteps 1 _ (startListening a (.run .st7 none) false false) :=
    blockSteps_startListening .st6 false true hl rfl rfl
  have hst7 : BlockSteps 1 _ (startListening a .idle true false) :=
    blockSteps_startListening .st7 false false hl rfl rfl
  have hrun := hst0.trans <| hst1.trans <| hst2.trans <| hst3.trans <| hst4.trans <| hst5.trans <| hst6.trans hst7
  refine (issue_leads hidle (hrun.leads hsched) rfl (by decide)).trans ?_
  simp [startListening, a, accept, loadOperands, hidle]

end Sys2Proof.Proofs
end

section
/-! SUPPORT. A byte operation before INIT: it comes to the loop of its first transfer, whatever the peer does, and stays
there, since nothing counts (70_reset_and_hazards.md R174; 42_transfer_primitive.md R112). -/

namespace Sys2Proof.Proofs

open Sys2Proof.Machine Sys2Proof.Safety

variable {s b : State} {st : MicroStep} {x : Option XferStep} {n N : Nat}

/-- The micro-steps of a byte operation as far as the loop of its first transfer, which is XF2 to XF7, and how many
block steps lead from each to the loop. -/
inductive OnWay : Nat → MicroStep → Option XferStep → Prop where
  | compose : OnWay 5 .wa0 none
  | first {st : MicroStep} (h : st = .wb0 ∨ st = .rd0) : OnWay 4 st none
  | call {st : MicroStep} (h : st = .wb1 ∨ st = .rd1) : OnWay 3 st none
  | clock {st : MicroStep} (h : st = .wb1 ∨ st = .rd1) : OnWay 2 st (some .xf0)
  | status {st : MicroStep} (h : st = .wb1 ∨ st = .rd1) : OnWay 1 st (some .xf1)
  | loop {st : MicroStep} {x : XferStep} (h : st = .wb1 ∨ st = .rd1)
      (hx : x ∈ [.xf2, .xf3, .xf4, .xf5, .xf6, .xf7]) : OnWay 0 st (some x)

theorem OnWay.le (h : OnWay n st x) : n ≤ 5 := by
  cases h <;> decide

/-- SEQ goes on to the loop, and with CF = 0 it goes round in it. -/
theorem OnWay.next (h : OnWay n st x) (hcf : n = 0 → s.cf = false) :
    ∃ st' x', nextSeq st x s = .run st' x' ∧ OnWay (n - 1) st' x' := by
  cases h with
  | compose => exact ⟨.wb0, none, rfl, .first (.inl rfl)⟩
  | first h =>
    rcases h with rfl | rfl
    · exact ⟨.wb1, none, rfl, .call (.inl rfl)⟩
    · exact ⟨.rd1, none, rfl, .call (.inr rfl)⟩
  | call h =>
    refine ⟨st, some .xf0, ?_, .clock h⟩
    rcases h with rfl | rfl <;> rfl
  | clock h => exact ⟨st, some .xf1, rfl, .status h⟩
  | status h => exact ⟨st, some .xf2, rfl, .loop h (by simp)⟩
  | @loop st x h hx =>
    cases x
    case xf4 =>
      rw [nextSeq_wait rfl]
      split
      · exact ⟨st, some .xf5, rfl, .loop h (by simp)⟩
      · exact ⟨st, some .xf4, rfl, .loop h hx⟩
    case xf7 =>
      have hround : nextSeq st (some .xf7) s = .run st (some .xf2) := by simp [nextSeq, opAt, xferOp, hcf rfl]
      exact ⟨st, some .xf2, hround, .loop h (by simp)⟩
    case xf0 | xf1 | xf8 | xf9 => simp at hx
    all_goals exact ⟨st, some _, rfl, .loop h (by simp)⟩

/-- On the way no micro-operation enables the unit or makes a line an output. -/
theorem OnWay.inputs (h : OnWay n st x) (s : State) :
    (applyOp (opAt st x) s).en = s.en ∧ (applyOp (opAt st x) s).sclDir = s.sclDir ∧
      (s.sdaDir = false → (applyOp (opAt st x) s).sdaDir = false) := by
  cases x with
  | some x =>
    obtain ⟨hen, hsdaDir, hsclDir, -⟩ := sameLines_xferOp x s
    exact ⟨hen, hsclDir, hsdaDir.trans⟩
  | none =>
    cases h with
    | compose => exact ⟨rfl, rfl, id⟩
    | first h | call h =>
      rcases h with rfl | rfl <;> simp [opAt, commandOp, applyOp]

/-- The call loads the mask of the byte transfer, and nothing writes XMASK after it. -/
theorem OnWay.xmask (h : OnWay n st x) (hmask : n < 3 → s.xmask = 0xF0#8) :
    n - 1 < 3 → (applyOp (opAt st x) s).xmask = 0xF0#8 := by
  cases x with
  | some x =>
    have hinside : n < 3 := by cases h <;> decide
    exact fun _ => (xferOp_xmask x s).trans (hmask hinside)
  | none =>
    intro hn
    cases h with
    | compose | first => omega
    | call h => rcases h with rfl | rfl <;> rfl

/-- XF1 clears CF and CNT, and the strobes of the loop do not count (R98). -/
theorem OnWay.status_eq (h : OnWay n st x) (he : s.en = false) (hmask : n < 3 → s.xmask = 0xF0#8)
    (hstatus : n = 0 → s.cf = false ∧ s.cnt = 0#4) :
    n - 1 = 0 → (applyOp (opAt st x) s).cf = false ∧ (applyOp (opAt st x) s).cnt = 0#4 := by
  intro hn
  cases h with
  | compose | first | call | clock => omega
  | status =>
    have hwrite : applyOp .writeSrMask s = { s with cf := false, cnt := 0#4 } :=
      (congrArg (writeStatus · s) (hmask (by decide))).trans (writeStatus_initStatus s)
    exact ⟨congrArg State.cf hwrite, congrArg State.cnt hwrite⟩
  | @loop st x h hx =>
    cases x
    case xf3 | xf6 =>
      have hstrobe : applyOp .strobe s = { s with sclPort := !s.sclPort } := countStrobe_of_disabled he
      exact ⟨(congrArg State.cf hstrobe).trans (hstatus rfl).1, (congrArg State.cnt hstrobe).trans (hstatus rfl).2⟩
    case xf0 | xf1 | xf8 | xf9 => simp at hx
    all_goals exact hstatus rfl

/-- A byte operation given in `b` is `n` block steps before the loop of its first transfer, or in it when `n` is 0, with
the unit not enabled. -/
structure Uncounted (b : State) (n : Nat) (s : State) : Prop where
  en : s.en = false
  way : ∃ st x, s.seq = .run st x ∧ OnWay n st x
  xmask : n < 3 → s.xmask = 0xF0#8
  status : n = 0 → s.cf = false ∧ s.cnt = 0#4
  sdaDir : b.sdaDir = false → s.sdaDir = false
  sclDir : b.sclDir = false → s.sclDir = false

theorem Uncounted.busy_eq (h : Uncounted b n s) : busy s = true := by
  obtain ⟨st, x, hs, -⟩ := h.way
  rw [busy, hs]

theorem Uncounted.withSched (h : Uncounted b n s) (moves : List Turn) : Uncounted b n { s with sched := moves } :=
  ⟨h.en, h.way, h.xmask, h.status, h.sdaDir, h.sclDir⟩

theorem Uncounted.peerStep_keeps (h : Uncounted b n s) (a c : Bool) : Uncounted b n (peerStep a c s) := by
  obtain ⟨hen, hway, hxmask, hstatus, hsdaDir, hsclDir⟩ := h
  constructor <;> simpa [peerStep]

/-- A block step brings the loop nearer, or goes round in it. -/
theorem Uncounted.blockStep_nearer (h : Uncounted b n s) : Uncounted b (n - 1) (blockStep s) := by
  obtain ⟨hen, ⟨st, x, hs, hway⟩, hxmask, hstatus, hsdaDir, hsclDir⟩ := h
  obtain ⟨hen', hsclDir', hsdaDir'⟩ := hway.inputs s
  obtain ⟨st', x', hnext, hway'⟩ := hway.next fun hn => (hstatus hn).1
  obtain ⟨wsdaDir, wsclDir, -, -, wcf, wcnt, wen, wxmask, -⟩ := microStep_registers s st x
  rw [blockStep_run hs]
  exact {
    en := wen.trans (hen'.trans hen)
    way := ⟨st', x', (microStep_seq s st x).trans hnext, hway'⟩
    xmask := fun hn => wxmask.trans (hway.xmask hxmask hn)
    status := by rw [wcf, wcnt]; exact hway.status_eq hen hxmask hstatus
    sdaDir := fun hb => wsdaDir.trans (hsdaDir' (hsdaDir hb))
    sclDir := fun hb => wsclDir.trans (hsclDir'.trans (hsclDir hb)) }

/-- A turn takes a coming move, or brings the loop nearer while the operation is not yet in it. -/
theorem Uncounted.turn_nearer (h : Uncounted b n s) (hn : noReset s.sched = true) :
    ∃ k ≤ n, Uncounted b k (turn s) ∧ (0 < n → (turn s).sched.length + k < s.sched.length + n) := by
  rcases turn_cases_of_noReset hn h.busy_eq with ⟨e, -⟩ | ⟨rest, hs, e⟩ | ⟨a, c, rest, hs, e⟩ <;> rw [e]
  · exact ⟨n - 1, Nat.sub_le n 1, h.blockStep_nearer, fun hpos => by rw [blockStep_sched]; omega⟩
  · refine ⟨n - 1, Nat.sub_le n 1, (h.withSched rest).blockStep_nearer, fun _ => ?_⟩
    rw [blockStep_sched, hs, List.length_cons]
    dsimp only
    omega
  · refine ⟨n, le_refl n, (h.withSched rest).peerStep_keeps a c, fun _ => ?_⟩
    rw [peerStep_sched, hs, List.length_cons]
    dsimp only
    omega

/-- With turns enough the operation is in the loop at the end, and it has not ended. -/
theorem Uncounted.loops (h : Uncounted b n s) (hn : noReset s.sched = true)
    (hN : n = 0 ∨ s.sched.length + n ≤ N) : Uncounted b 0 (runWhile busy N s) := by
  induction N generalizing s n with
  | zero =>
    obtain rfl : n = 0 := by omega
    exact h
  | succ N ih =>
    obtain ⟨k, hle, hk, hless⟩ := h.turn_nearer hn
    rw [runWhile_go h.busy_eq]
    exact ih hk (noReset_turn hn) (by omega)

/-- WRB, RDB and WRA, from their first micro-step on. -/
theorem uncounted_runCommand {f : Bool} {d : Byte} (hway : OnWay n st none) (hn : noReset s.sched = true)
    (he : s.en = false) : Uncounted s 0 (runCommand (accept st f d s)) := by
  have hout : 3 ≤ n := by cases hway <;> decide
  have hstart : Uncounted s n (accept st f d s) :=
    ⟨he, ⟨st, none, rfl, hway⟩, fun hlt => by omega, fun hzero => by omega, id, id⟩
  exact hstart.loops hn (.inr (Nat.add_le_add_left (hway.le.trans (by decide)) _))

/-- Settles O30: each of the three comes to the loop within its turns, and the loop does not count. -/
theorem noTransferBeforeInit : Obligations.NoTransferBeforeInit := by
  intro s t i hi hen hn h
  have hloop : Uncounted s 0 t := by
    rcases hi with ⟨d, rfl⟩ | ⟨f, rfl⟩ | ⟨d, f, rfl⟩ <;> obtain ⟨-, rfl⟩ := issue_next h
    · exact uncounted_runCommand (.first (.inl rfl)) hn hen
    · exact uncounted_runCommand (.first (.inr rfl)) hn hen
    · exact uncounted_runCommand .compose hn hen
  obtain ⟨st, x, hs, hway⟩ := hloop.way
  obtain ⟨hcf, hcnt⟩ := hloop.status rfl
  refine ⟨hloop.busy_eq, ?inside, hcf, hcnt, fun hsdaDir hsclDir => ?lines⟩
  case inside =>
    cases hway with
    | loop hst hx => exact ⟨st, _, hs, by simpa using hst⟩
  case lines =>
    rw [masterSdaLow, masterSclLow, hloop.sdaDir hsdaDir, hloop.sclDir hsclDir]
    exact ⟨rfl, rfl⟩

end Sys2Proof.Proofs
end
